-- ==== Sys2Proof/Word.lean ====
section
/-! DEFINITION. The word types of the block (00_scope.md R17, R22): every value is an unsigned bit string; the spec
has no signed value. -/

namespace Sys2Proof

/-- `u8`: one byte, 8 bits (R17). -/
abbrev Byte := BitVec 8

/-- `u16`: the width of the CRC, of `seq_no`, of every length field (R17). -/
abbrev Half := BitVec 16

/-- 32 bits: the command word (R100) and the widest register, XTRA (R44). -/
abbrev Word := BitVec 32

end Sys2Proof
end

