-- ==== Sys2Proof/Syntax.lean ====
section
/-! DEFINITION. The 21 commands (30_encoding.md R110), the word formats (R101 to R104), and the assembler line of the
spec's listings with its pseudo-commands (R116, R117). -/

namespace Sys2Proof

/-- One constructor per row of spec/opcode_table.json. Operands have exactly the width of their field and are used as
they stand (R105), so every term is a command. -/
inductive Instr where
  /-- NOP, 0x00, format Z (R140). -/
  | nop
  /-- SRST, 0x01, format Z (R141). -/
  | srst
  /-- ICLR, 0x10, format Z (R142). -/
  | iclr
  /-- IPUSH imm8, 0x11, format B8 (R143). -/
  | ipush (imm8 : Byte)
  /-- OCLR, 0x12, format Z (R144). -/
  | oclr
  /-- OTOI, 0x13, format Z (R145). -/
  | otoi
  /-- SETF imm8, 0x20, format B8 (R147). -/
  | setf (imm8 : Byte)
  /-- SETSEQ imm16, 0x21, format B16 (R148). -/
  | setseq (imm16 : Half)
  /-- SETCMD imm8, 0x22, format B8 (R149). -/
  | setcmd (imm8 : Byte)
  /-- SETL2F imm8, 0x23, format B8 (R150). -/
  | setl2f (imm8 : Byte)
  /-- SETKEY idx, imm8, 0x24, format AB8 (R151). -/
  | setkey (idx : BitVec 4) (imm8 : Byte)
  /-- FCLR, 0x30, format Z (R152). -/
  | fclr
  /-- FADD imm8, 0x31, format B8 (R153). -/
  | fadd (imm8 : Byte)
  /-- FLOOK imm8, 0x32, format B8 (R154). -/
  | flook (imm8 : Byte)
  /-- CRC16, 0x40, format Z (R185). -/
  | crc16
  /-- L1PACK, 0x50, format Z (R205). -/
  | l1pack
  /-- L1PARSE, 0x51, format Z (R210). -/
  | l1parse
  /-- L2PACK, 0x60, format Z (R235). -/
  | l2pack
  /-- L2PARSE, 0x61, format Z (R240). -/
  | l2parse
  /-- AESENC, 0x70, format Z (R281). -/
  | aesenc
  /-- AESDEC, 0x71, format Z (R282). -/
  | aesdec
  deriving DecidableEq, Repr

/-- The four formats of a command word (R101 to R104). -/
inductive Format where
  /-- No operand (R101). -/
  | z
  /-- One 8-bit immediate (R102). -/
  | b8
  /-- One 16-bit immediate (R103). -/
  | b16
  /-- A 4-bit index and an 8-bit immediate (R104). -/
  | ab8
  deriving DecidableEq, Repr

/-- One line of the spec's listings (R116): a mnemonic and its operands, each a number. Unlike `Instr` it can be
ill-formed ("An operand that does not fit its field is an assembly error, not a command"). -/
structure AsmLine where
  mnemonic : String
  operands : List Nat
  deriving DecidableEq, Repr

end Sys2Proof
end

