-- ==== Sys2Proof/WellFormed.lean ====
section
/-! DEFINITION. Which assembler lines are well formed (30_encoding.md R116, R117). A term of `Instr` needs no check: its
operands have the width of their fields (R105). Which command WORDS are well formed is decided in Decode.lean. -/

namespace Sys2Proof

/-- What operands a mnemonic takes (R110, R117). -/
inductive OperandShape where
  /-- No operand. -/
  | none
  /-- One number below 256. -/
  | imm8
  /-- One number below 65536. -/
  | imm16
  /-- A number below 16 and one below 256. -/
  | idxImm8
  /-- Any number of bytes. -/
  | bytes
  /-- Exactly 16 bytes. -/
  | bytes16
  /-- A key byte, then any number of bytes. -/
  | keyBytes
  deriving DecidableEq, Repr

/-- The operands of each mnemonic of R110 and of each pseudo-command of R117, upper case as R116 writes them. -/
def asmShape (mnemonic : String) : Option OperandShape :=
  match mnemonic with
  | "NOP" => some .none
  | "SRST" => some .none
  | "ICLR" => some .none
  | "IPUSH" => some .imm8
  | "OCLR" => some .none
  | "OTOI" => some .none
  | "SETF" => some .imm8
  | "SETSEQ" => some .imm16
  | "SETCMD" => some .imm8
  | "SETL2F" => some .imm8
  | "SETKEY" => some .idxImm8
  | "FCLR" => some .none
  | "FADD" => some .imm8
  | "FLOOK" => some .imm8
  | "CRC16" => some .none
  | "L1PACK" => some .none
  | "L1PARSE" => some .none
  | "L2PACK" => some .none
  | "L2PARSE" => some .none
  | "AESENC" => some .none
  | "AESDEC" => some .none
  | "IPUSHS" => some .bytes
  | "ILOAD" => some .bytes
  | "SETKEYS" => some .bytes16
  | "FIELD" => some .keyBytes
  | _ => Option.none

/-- Whether the operands fit the shape: their number, and each within its field (R116). -/
def OperandShape.accepts : OperandShape → List Nat → Bool
  | .none, ops => ops.isEmpty
  | .imm8, [a] => a < 256
  | .imm8, _ => false
  | .imm16, [a] => a < 65536
  | .imm16, _ => false
  | .idxImm8, [i, a] => i < 16 && a < 256
  | .idxImm8, _ => false
  | .bytes, ops => ops.all (· < 256)
  | .bytes16, ops => ops.length == 16 && ops.all (· < 256)
  | .keyBytes, k :: ops => k < 256 && ops.all (· < 256)
  | .keyBytes, [] => false

/-- An assembler line is well formed when its mnemonic is known and its operands fit (R116). -/
def AsmLine.wf (l : AsmLine) : Bool :=
  match asmShape l.mnemonic with
  | some sh => sh.accepts l.operands
  | Option.none => false

end Sys2Proof
end

