-- ==== Sys2Proof/Decode.lean ====
section
/-! DEFINITION. Decoding of the 32-bit command word (30_encoding.md R100 to R113), total on every word and rejecting by
name; then the encoder, written from the same table (R110), and the assembler of R116, R117. -/

namespace Sys2Proof

/-- `op = w[31:24]` (R100). -/
def opField (w : Word) : Byte := w.extractLsb' 24 8

/-- `imm8 = B[7:0] = w[7:0]` (R102, R104). -/
def imm8Field (w : Word) : Byte := w.extractLsb' 0 8

/-- `imm16 = B[15:0] = w[15:0]` (R103). -/
def imm16Field (w : Word) : Half := w.extractLsb' 0 16

/-- `idx = A[3:0] = w[19:16]` (R104). -/
def idxField (w : Word) : BitVec 4 := w.extractLsb' 16 4

/-- The bits below the opcode that a format says must be 0 (R101 to R104). -/
def Format.mustBeZero : Format → Word
  | .z => 0x00FFFFFF
  | .b8 => 0x00FFFF00
  | .b16 => 0x00FF0000
  | .ab8 => 0x00F0FF00

/-- The mask of a format (R101 to R104): the opcode and the must-be-zero bits. -/
def Format.mask (f : Format) : Word := 0xFF000000 ||| f.mustBeZero

/-- Why a word is no command (R111). -/
inductive Reject where
  /-- The opcode is not one of the 21 (R112). -/
  | unassignedOpcode
  /-- An assigned opcode with a must-be-zero bit set (R113). -/
  | mustBeZeroBitSet
  deriving DecidableEq, Repr

/-- The row of R110 that a word's opcode names: its format, and the command with the operands the format extracts. -/
def rowOf (w : Word) : Option (Format × Instr) :=
  match (opField w).toNat with
  | 0x00 => some (.z, .nop)
  | 0x01 => some (.z, .srst)
  | 0x10 => some (.z, .iclr)
  | 0x11 => some (.b8, .ipush (imm8Field w))
  | 0x12 => some (.z, .oclr)
  | 0x13 => some (.z, .otoi)
  | 0x20 => some (.b8, .setf (imm8Field w))
  | 0x21 => some (.b16, .setseq (imm16Field w))
  | 0x22 => some (.b8, .setcmd (imm8Field w))
  | 0x23 => some (.b8, .setl2f (imm8Field w))
  | 0x24 => some (.ab8, .setkey (idxField w) (imm8Field w))
  | 0x30 => some (.z, .fclr)
  | 0x31 => some (.b8, .fadd (imm8Field w))
  | 0x32 => some (.b8, .flook (imm8Field w))
  | 0x40 => some (.z, .crc16)
  | 0x50 => some (.z, .l1pack)
  | 0x51 => some (.z, .l1parse)
  | 0x60 => some (.z, .l2pack)
  | 0x61 => some (.z, .l2parse)
  | 0x70 => some (.z, .aesenc)
  | 0x71 => some (.z, .aesdec)
  | _ => none

/-- The decoding procedure of R111: first the opcode, then the must-be-zero bits of its format. -/
def decode (w : Word) : Except Reject Instr :=
  match rowOf w with
  | none => .error .unassignedOpcode
  | some (f, i) => if w &&& f.mustBeZero = 0 then .ok i else .error .mustBeZeroBitSet

/-- The command word of three fields, `op` highest (R100). -/
def mkWord (op a : Byte) (b : Half) : Word := op ++ a ++ b

/-- The word of a command: its opcode (R110) and its operands where its format puts them (R101 to R104). -/
def encode : Instr → Word
  | .nop => mkWord 0x00 0 0
  | .srst => mkWord 0x01 0 0
  | .iclr => mkWord 0x10 0 0
  | .ipush imm8 => mkWord 0x11 0 (imm8.setWidth 16)
  | .oclr => mkWord 0x12 0 0
  | .otoi => mkWord 0x13 0 0
  | .setf imm8 => mkWord 0x20 0 (imm8.setWidth 16)
  | .setseq imm16 => mkWord 0x21 0 imm16
  | .setcmd imm8 => mkWord 0x22 0 (imm8.setWidth 16)
  | .setl2f imm8 => mkWord 0x23 0 (imm8.setWidth 16)
  | .setkey idx imm8 => mkWord 0x24 (idx.setWidth 8) (imm8.setWidth 16)
  | .fclr => mkWord 0x30 0 0
  | .fadd imm8 => mkWord 0x31 0 (imm8.setWidth 16)
  | .flook imm8 => mkWord 0x32 0 (imm8.setWidth 16)
  | .crc16 => mkWord 0x40 0 0
  | .l1pack => mkWord 0x50 0 0
  | .l1parse => mkWord 0x51 0 0
  | .l2pack => mkWord 0x60 0 0
  | .l2parse => mkWord 0x61 0 0
  | .aesenc => mkWord 0x70 0 0
  | .aesdec => mkWord 0x71 0 0

/-- The format of a command (R110). -/
def Instr.format : Instr → Format
  | .nop | .srst | .iclr | .oclr | .otoi | .fclr | .crc16 | .l1pack | .l1parse | .l2pack | .l2parse
  | .aesenc | .aesdec => .z
  | .ipush _ | .setf _ | .setcmd _ | .setl2f _ | .fadd _ | .flook _ => .b8
  | .setseq _ => .b16
  | .setkey _ _ => .ab8

/-- The `match` column of a command's row (R110). -/
def Instr.matchWord : Instr → Word
  | .nop => 0x00000000
  | .srst => 0x01000000
  | .iclr => 0x10000000
  | .ipush _ => 0x11000000
  | .oclr => 0x12000000
  | .otoi => 0x13000000
  | .setf _ => 0x20000000
  | .setseq _ => 0x21000000
  | .setcmd _ => 0x22000000
  | .setl2f _ => 0x23000000
  | .setkey _ _ => 0x24000000
  | .fclr => 0x30000000
  | .fadd _ => 0x31000000
  | .flook _ => 0x32000000
  | .crc16 => 0x40000000
  | .l1pack => 0x50000000
  | .l1parse => 0x51000000
  | .l2pack => 0x60000000
  | .l2parse => 0x61000000
  | .aesenc => 0x70000000
  | .aesdec => 0x71000000

/-- The instruction the decoder reads from the bits `w`, bit 0 least significant. A command is exactly one 32-bit word
with no byte order of its own (R75, R100), so the table's numbering of bits is the word's; every bit above `nbits` is
0 (log 11). -/
def decodeTableWord (nbits w : Nat) : Option Instr :=
  (decode (BitVec.ofNat 32 (w % 2 ^ nbits))).toOption

/-- `IPUSHS b0 ... bn` expands to one IPUSH a byte, in order (R117). -/
def expandPushes (bytes : List Nat) : List Instr := bytes.map fun b => .ipush (BitVec.ofNat 8 b)

/-- `SETKEYS k0 ... k15` expands to `SETKEY 0, k0` ... `SETKEY 15, k15` (R117). -/
def expandKeys (bytes : List Nat) : List Instr :=
  bytes.mapIdx fun i b => .setkey (BitVec.ofNat 4 i) (BitVec.ofNat 8 b)

/-- The commands a line stands for; it is asked only of well-formed lines (`assemble`). -/
def expand (l : AsmLine) : List Instr :=
  match l.mnemonic, l.operands with
  | "NOP", [] => [.nop]
  | "SRST", [] => [.srst]
  | "ICLR", [] => [.iclr]
  | "IPUSH", [b] => [.ipush (BitVec.ofNat 8 b)]
  | "OCLR", [] => [.oclr]
  | "OTOI", [] => [.otoi]
  | "SETF", [b] => [.setf (BitVec.ofNat 8 b)]
  | "SETSEQ", [h] => [.setseq (BitVec.ofNat 16 h)]
  | "SETCMD", [b] => [.setcmd (BitVec.ofNat 8 b)]
  | "SETL2F", [b] => [.setl2f (BitVec.ofNat 8 b)]
  | "SETKEY", [i, b] => [.setkey (BitVec.ofNat 4 i) (BitVec.ofNat 8 b)]
  | "FCLR", [] => [.fclr]
  | "FADD", [b] => [.fadd (BitVec.ofNat 8 b)]
  | "FLOOK", [b] => [.flook (BitVec.ofNat 8 b)]
  | "CRC16", [] => [.crc16]
  | "L1PACK", [] => [.l1pack]
  | "L1PARSE", [] => [.l1parse]
  | "L2PACK", [] => [.l2pack]
  | "L2PARSE", [] => [.l2parse]
  | "AESENC", [] => [.aesenc]
  | "AESDEC", [] => [.aesdec]
  | "IPUSHS", bs => expandPushes bs
  | "ILOAD", bs => .iclr :: expandPushes bs
  | "SETKEYS", ks => expandKeys ks
  | "FIELD", k :: bs => .iclr :: expandPushes bs ++ [.fadd (BitVec.ofNat 8 k)]
  | _, _ => []

/-- The command words of a line, or nothing: an ill-formed line is an assembly error (R116). -/
def assemble (l : AsmLine) : Option (List Word) :=
  if l.wf then some ((expand l).map encode) else none

end Sys2Proof
end

