-- ==== Sys2Proof/Config.lean ====
section
/-! DEFINITION. What an instance of the block fixes for its whole life (00_scope.md R18, R19; 10_state.md R60), and
the one free value of the model. -/

namespace Sys2Proof

/-- A capacity parameter (R18): a number of bytes or records, or unbounded ("A model may instantiate any of them as
unbounded; then error E_CAP is never raised"). -/
inductive Cap where
  | bounded (n : Nat)
  | unbounded
  deriving DecidableEq, Repr

/-- `CRC_TABLE`, "a function from 0..255 to 16-bit values" (R19), as its 256 values. -/
abbrev CrcTable := Vector Half 256

/-- The parameters of one instance (R18, R19). They are no architectural state (R60): no command and no reset changes
them (R353). -/
structure Params where
  /-- `CRC_TABLE` (R19). -/
  crcTable : CrcTable
  /-- `IBUF_CAP`: bytes the input buffer holds (R18). -/
  ibufCap : Cap
  /-- `OBUF_CAP`: bytes the output buffer holds (R18). -/
  obufCap : Cap
  /-- `FTAB_CAP`: records the field table holds (R18). -/
  ftabCap : Cap
  /-- `FVAL_CAP`: total bytes of all field values in the field table (R18). -/
  fvalCap : Cap
  deriving DecidableEq, Repr

/-- FREE VALUE (log 10, DESIGN CHOICE): what a 32-bit count register (ILEN, OLEN, FCNT, XTRA, a value length) shows
for a count of 2^32 or more. The spec states no value there (R158, R221: "for any `IBUF_CAP < 2^32`"). No body:
nothing can be proved of it. -/
opaque Config.wideCount : Nat → Word

end Sys2Proof
end

