-- ==== Sys2Proof/Machine/State.lean ====
section
/-! DEFINITION. The state of the block (10_state.md R30), its reset (R59, 70_reset_and_hazards.md R351), and the
reasons a step can stop. -/

namespace Sys2Proof.Machine

/-- The ten errors of R300. Code 0, "completed", is the absence of an error. -/
inductive Err where
  /-- E_FRAMING, code 1 (R301). -/
  | framing
  /-- E_CHECKSUM, code 2 (R302). -/
  | checksum
  /-- E_TRUNC, code 3 (R303). -/
  | trunc
  /-- E_ALIGN, code 4 (R304). -/
  | align
  /-- E_KEY, code 5 (R305). -/
  | key
  /-- E_LEN, code 6 (R306). -/
  | len
  /-- E_CAP, code 7 (R307). -/
  | cap
  /-- E_NOFIELD, code 8 (R308). -/
  | noField
  /-- E_DUPKEY, code 9 (R308). -/
  | dupKey
  /-- E_ILLEGAL, code 10 (R309). -/
  | illegal
  deriving DecidableEq, Repr

/-- One record of FTAB: "a pair `(key: u8, value: byte string of 0 to 65535 bytes)`" (R51). -/
structure Record where
  key : Byte
  value : List Byte
  deriving DecidableEq, Repr

/-- What reaches the block from outside (R100, R330, R350). -/
inductive HostInput where
  /-- A command word on the command port. -/
  | command (w : Word)
  /-- A pulse of the power-on reset input (R350). -/
  | powerOn
  deriving DecidableEq, Repr

/-- The machine. Every item of R30 and two fields of the model's own, `params` and `inputs`. ILEN, OLEN and FCNT are
lengths (R33, R36, R51); STATUS.DUP is a function of FTAB (R55); reserved bits are absent (R56). -/
structure State where
  /-- The instance parameters (R18, R19): read, never written (log 1). -/
  params : Params
  /-- What the host and the platform will still present, oldest first (log 3). -/
  inputs : List HostInput
  /-- IBUF (R32). -/
  ibuf : List Byte
  /-- OBUF (R35). -/
  obuf : List Byte
  /-- FTAB (R51). -/
  ftab : List Record
  /-- KEY[0..15] (R49). -/
  key : Vector Byte 16
  /-- KVALID (R50). -/
  kvalid : BitVec 16
  /-- STATUS.ERR (R53): the error of the last command, `none` for code 0 (log 8). -/
  err : Option Err
  /-- STATUS.PARTIAL (R54). -/
  isPartial : Bool
  /-- Bits 10 to 1 of ERRLOG (R57); bit `k` of the register is bit `k - 1` here (log 8). -/
  errlog : BitVec 10
  /-- L1FLAGS (R39). -/
  l1flags : Byte
  /-- L1SEQ (R40). -/
  l1seq : Half
  /-- L1LEN (R41). -/
  l1len : Half
  /-- L1CRC (R42). -/
  l1crc : Half
  /-- REMAIN (R43). -/
  remain : Half
  /-- XTRA (R44). -/
  xtra : Word
  /-- L2CMD (R45). -/
  l2cmd : Byte
  /-- L2FLAGS (R46). -/
  l2flags : Byte
  /-- CRCR (R47). -/
  crcr : Half
  deriving DecidableEq, Repr

/-- Why the machine stops with a fault: never. "No error halts, locks or degrades the block" (R313); an error is an
outcome in STATUS.ERR and ERRLOG (R311). Nobody raises one (log 9, safe). -/
inductive Fault where
  deriving DecidableEq, Repr

/-- Why the machine refuses an instruction. -/
inductive Refusal where
  /-- An instruction with no meaning in the model yet; raised by an arm of `exec` only. No arm does. Safe. -/
  | notModelled (mnemonic : String)
  deriving DecidableEq, Repr

/-- The state after reset of an instance with parameters `p` (R59, R351, R353), with nothing presented yet. The spec
gives KEY no value (R49); the model's is zero (log 6, DESIGN CHOICE). -/
def State.resetWith (p : Params) : State where
  params := p
  inputs := []
  ibuf := []
  obuf := []
  ftab := []
  key := Vector.replicate 16 0
  kvalid := 0
  err := none
  isPartial := false
  errlog := 0
  l1flags := 0
  l1seq := 0
  l1len := 0
  l1crc := 0
  remain := 0
  xtra := 0
  l2cmd := 0
  l2flags := 0
  crcr := 0

/-- The machine right after reset, with the spec's default parameters (R18, R19, R59; log 2). -/
def State.reset : State := State.resetWith Params.default

/-- The total of all value lengths in a field table (R51, R153). -/
def valueBytes (ftab : List Record) : Nat := (ftab.map fun r => r.value.length).sum

/-- The size bounds of the stores (R32, R35, R51). The stores are byte strings, whose form is already unique; there is
no address map (R70, R72). -/
def Memory.wf (p : Params) (ibuf obuf : List Byte) (ftab : List Record) : Bool :=
  !p.ibufCap.exceeds ibuf.length && !p.obufCap.exceeds obuf.length && !p.ftabCap.exceeds ftab.length &&
    !p.fvalCap.exceeds (valueBytes ftab) && ftab.all fun r => r.value.length ≤ 65535

/-- The stores of a state keep their size bounds. -/
abbrev State.wf (s : State) : Bool := Memory.wf s.params s.ibuf s.obuf s.ftab

end Sys2Proof.Machine
end

