-- ==== Sys2Proof/Machine/Operands.lean ====
section
/-! DEFINITION. The operand forms of the commands: 16-bit fields in two bytes (00_scope.md R24, 20_memory.md R73), the
count registers (10_state.md R33, R36, R51), the key file (R49, R50) and the lookup in the field table (R154). No
command has an address operand other than SETKEY's index (R70). -/

namespace Sys2Proof.Machine

/-- `lo8(v) = v[7:0]` (R24). -/
def lo8 (v : Half) : Byte := v.extractLsb' 0 8

/-- `hi8(v) = v[15:8]` (R24). -/
def hi8 (v : Half) : Byte := v.extractLsb' 8 8

/-- `le16(b0, b1) = b0 + 256 * b1`, low byte first (R24, R73). -/
def le16 (b0 b1 : Byte) : Half := b1 ++ b0

/-- A 16-bit field as its two bytes in wire order (R73). -/
def le16Bytes (v : Half) : List Byte := [lo8 v, hi8 v]

/-- A count as a 16-bit value; used where a rule has shown that it fits (R221). -/
def half (n : Nat) : Half := BitVec.ofNat 16 n

/-- A count as a 32-bit register shows it (R33, R36, R44, R51); from 2^32 on a free value (log 10). -/
def word32 (n : Nat) : Word := if n < 2 ^ 32 then BitVec.ofNat 32 n else Config.wideCount n

/-- ILEN = len(IBUF) (R33). -/
def State.ilen (s : State) : Nat := s.ibuf.length

/-- OLEN = len(OBUF) (R36). -/
def State.olen (s : State) : Nat := s.obuf.length

/-- FCNT = len(FTAB) (R51). -/
def State.fcnt (s : State) : Nat := s.ftab.length

/-- KVALID with bit `idx` set (R151). -/
def setValidBit (kvalid : BitVec 16) (idx : BitVec 4) : BitVec 16 := kvalid ||| (1#16 <<< idx.toNat)

/-- KEY with byte `idx` replaced (R151). -/
def setKeyAt (key : Vector Byte 16) (idx : BitVec 4) (b : Byte) : Vector Byte 16 := key.set idx.toNat b idx.isLt

/-- Every key byte has been written since reset: `KVALID = 0xFFFF` (R50, R280). -/
def State.keyReady (s : State) : Bool := s.kvalid == 0xFFFF

/-- The records whose key is `k`, in order: the matches of FLOOK (R154). -/
def recordsWith (k : Byte) (ftab : List Record) : List Record := ftab.filter fun r => r.key == k

end Sys2Proof.Machine
end

