-- ==== Sys2Proof/Machine/Flags.lean ====
section
/-! DEFINITION. The status fields: error codes (60_exceptions.md R300), STATUS (10_state.md R52 to R56) and ERRLOG
(R57). -/

namespace Sys2Proof.Machine

/-- The code of an error, 1 to 10 (R300). -/
def Err.code : Err → Nat
  | .framing => 1
  | .checksum => 2
  | .trunc => 3
  | .align => 4
  | .key => 5
  | .len => 6
  | .cap => 7
  | .noField => 8
  | .dupKey => 9
  | .illegal => 10

/-- STATUS.ERR as a 4-bit code: 0 when the last command completed (R53). -/
def errField (err : Option Err) : BitVec 4 :=
  match err with
  | none => 0
  | some e => BitVec.ofNat 4 e.code

/-- STATUS.DUP: some key occurs in two records (R55). -/
def dupFlag : List Record → Bool
  | [] => false
  | r :: rs => rs.any (fun q => q.key == r.key) || dupFlag rs

/-- STATUS: ERR in bits 3:0, PARTIAL in bit 4, DUP in bit 5, bits 15:6 read as 0 (R52, R56). -/
def State.statusWord (s : State) : BitVec 16 :=
  0#10 ++ BitVec.ofBool (dupFlag s.ftab) ++ BitVec.ofBool s.isPartial ++ errField s.err

/-- The stored log bits with the bit of error `e` set (R311). -/
def logError (errlog : BitVec 10) (e : Err) : BitVec 10 := errlog ||| (1#10 <<< (e.code - 1))

/-- ERRLOG: bit `k` for code `k`; bit 0 and bits 15:11 read as 0 (R57). -/
def State.errlogWord (s : State) : BitVec 16 := 0#5 ++ s.errlog ++ 0#1

end Sys2Proof.Machine
end

