-- ==== Sys2Proof/Machine/Ops.lean ====
section
/-! DEFINITION. The named operations on the state: the one write of each register and store (00_scope.md R25,
10_state.md R48), completing (60_exceptions.md R310), raising an error (R311), reset (70_reset_and_hazards.md R350 to
R353) and the arrival of inputs. -/

namespace Sys2Proof.Machine

/-- `IBUF <- bytes` (R25, R32). -/
def State.setIbuf (s : State) (bytes : List Byte) : State := { s with ibuf := bytes }

/-- `OBUF <- bytes`; "Each writer replaces the whole of OBUF; none appends" (R35). -/
def State.setObuf (s : State) (bytes : List Byte) : State := { s with obuf := bytes }

/-- `FTAB <- records` (R25, R51). -/
def State.setFtab (s : State) (records : List Record) : State := { s with ftab := records }

/-- `KEY[idx] <- b; KVALID[idx] <- 1` (R151). -/
def State.setKeyByte (s : State) (idx : BitVec 4) (b : Byte) : State :=
  { s with key := setKeyAt s.key idx b, kvalid := setValidBit s.kvalid idx }

/-- `L1FLAGS <- v` (R39). -/
def State.setL1Flags (s : State) (v : Byte) : State := { s with l1flags := v }

/-- `L1SEQ <- v` (R40). -/
def State.setL1Seq (s : State) (v : Half) : State := { s with l1seq := v }

/-- `L1LEN <- len; L1CRC <- crc` (R41, R42). -/
def State.setL1LenCrc (s : State) (len crc : Half) : State := { s with l1len := len, l1crc := crc }

/-- `REMAIN <- remain; XTRA <- xtra; STATUS.PARTIAL <- part` (R43, R44, R54). -/
def State.setProgress (s : State) (remain : Half) (xtra : Word) (part : Bool) : State :=
  { s with remain := remain, xtra := xtra, isPartial := part }

/-- `L2CMD <- v` (R45). -/
def State.setL2Cmd (s : State) (v : Byte) : State := { s with l2cmd := v }

/-- `L2FLAGS <- v` (R46). -/
def State.setL2Flags (s : State) (v : Byte) : State := { s with l2flags := v }

/-- `CRCR <- v` (R47). -/
def State.setCrcr (s : State) (v : Half) : State := { s with crcr := v }

/-- What the host and the platform will still present. -/
def State.setInputs (s : State) (inputs : List HostInput) : State := { s with inputs := inputs }

/-- Completion: `STATUS.ERR <- 0`, no ERRLOG bit changes (R310). -/
def State.complete (s : State) : State := { s with err := none }

/-- TAKING AN ERROR (R311): `STATUS.ERR <- k; ERRLOG[k] <- 1` "and nothing else". There is no vector, no saved program
counter, no saved status and no mode switch (R311), and so no return either: "There is no trap return and nothing to
return to" (R314). -/
def State.raiseError (s : State) (e : Err) : State := { s with err := some e, errlog := logError s.errlog e }

/-- `if c: raise e`, then the rest of the pseudocode (R26): a raise discards everything else. -/
def raiseIf (c : Bool) (e : Err) (rest : Except Err State) : Except Err State := if c then .error e else rest

/-- The end of every command (R26, R310, R311): its writes and ERR 0, or the error of the first failing check alone. -/
def conclude (s : State) (r : Except Err State) : Host.Outcome State Fault Refusal :=
  match r with
  | .ok s' => .next s'.complete
  | .error e => .next (s.raiseError e)

/-- Every item takes its reset value; the parameters stay, and so does what is yet to be presented (R352, R353;
log 7). -/
def State.toReset (s : State) : State := (State.resetWith s.params).setInputs s.inputs

/-- The next input, and the state once it has been taken. -/
def State.takeInput (s : State) : Option (HostInput × State) :=
  match s.inputs with
  | [] => none
  | x :: rest => some (x, s.setInputs rest)

/-- The host presents one more input before the rest. -/
def State.present (s : State) (x : HostInput) : State := s.setInputs (x :: s.inputs)

end Sys2Proof.Machine
end

