-- ==== Sys2Proof/Machine/AesCore.lean ====
section
/-! DEFINITION. AES-128 (44_aes_ecb.md R262 to R274), which the spec supplies from general knowledge, and ECB (R261).
The state `s[0..15]` is four columns of four bytes: `s[r + 4 * c]` is byte `r` of column `c` (R262); a word of the key
schedule is a column and a round key is four of them (R272; log 12). -/

namespace Sys2Proof.Machine

/-- Four bytes: a column of the AES state (R262), a word of the key schedule (R272). -/
structure AesCol where
  b0 : Byte
  b1 : Byte
  b2 : Byte
  b3 : Byte
  deriving DecidableEq, Repr

/-- Sixteen bytes in column-major order (R262): a block, a state, a round key. -/
structure AesBlock where
  c0 : AesCol
  c1 : AesCol
  c2 : AesCol
  c3 : AesCol
  deriving DecidableEq, Repr

/-- The bytes of a block in index order, `s[0]` to `s[15]` (R262). -/
def AesBlock.toBytes (s : AesBlock) : List Byte :=
  [s.c0.b0, s.c0.b1, s.c0.b2, s.c0.b3, s.c1.b0, s.c1.b1, s.c1.b2, s.c1.b3,
   s.c2.b0, s.c2.b1, s.c2.b2, s.c2.b3, s.c3.b0, s.c3.b1, s.c3.b2, s.c3.b3]

/-- The key bytes as a block, `KEY[i]` byte `i` (R49, R76). -/
def keyBlock (key : Vector Byte 16) : AesBlock :=
  ⟨⟨key[0], key[1], key[2], key[3]⟩, ⟨key[4], key[5], key[6], key[7]⟩,
   ⟨key[8], key[9], key[10], key[11]⟩, ⟨key[12], key[13], key[14], key[15]⟩⟩

/-- A function on bytes, on every byte of a column. -/
def AesCol.mapBytes (f : Byte → Byte) (w : AesCol) : AesCol := ⟨f w.b0, f w.b1, f w.b2, f w.b3⟩

/-- A function on columns, on every column of a block. -/
def AesBlock.mapCols (f : AesCol → AesCol) (s : AesBlock) : AesBlock := ⟨f s.c0, f s.c1, f s.c2, f s.c3⟩

/-- XOR, byte by byte. -/
def AesCol.xor (a b : AesCol) : AesCol := ⟨a.b0 ^^^ b.b0, a.b1 ^^^ b.b1, a.b2 ^^^ b.b2, a.b3 ^^^ b.b3⟩

/-- `AddRoundKey(s, rk)` (R270). -/
def addRoundKey (s rk : AesBlock) : AesBlock :=
  ⟨s.c0.xor rk.c0, s.c1.xor rk.c1, s.c2.xor rk.c2, s.c3.xor rk.c3⟩

/-- `xtime(a)` (R263): the shift drops bit 7, and 0x1B is added when bit 7 was 1. -/
def xtime (a : Byte) : Byte := if a.getLsbD 7 then (a <<< 1) ^^^ 0x1B else a <<< 1

/-- The loop of `gmul` (R263), `n` passes: `p`, `a`, and the bits of `b` still to come, lowest first. -/
def gmulLoop : Nat → Byte → Byte → Byte → Byte
  | 0, p, _, _ => p
  | n + 1, p, a, b => gmulLoop n (if b.getLsbD 0 then p ^^^ a else p) (xtime a) (b >>> 1)

/-- `gmul(a, b)`, the product in GF(2^8) (R263). -/
def gmul (a b : Byte) : Byte := gmulLoop 8 0 a b

/-- `SBOX` (R264): `SBOX[0xRC]` is in row `R`, column `C`. -/
def sboxRows : List (List Byte) :=
  [[0x63, 0x7C, 0x77, 0x7B, 0xF2, 0x6B, 0x6F, 0xC5, 0x30, 0x01, 0x67, 0x2B, 0xFE, 0xD7, 0xAB, 0x76]] ++
  [[0xCA, 0x82, 0xC9, 0x7D, 0xFA, 0x59, 0x47, 0xF0, 0xAD, 0xD4, 0xA2, 0xAF, 0x9C, 0xA4, 0x72, 0xC0]] ++
  [[0xB7, 0xFD, 0x93, 0x26, 0x36, 0x3F, 0xF7, 0xCC, 0x34, 0xA5, 0xE5, 0xF1, 0x71, 0xD8, 0x31, 0x15]] ++
  [[0x04, 0xC7, 0x23, 0xC3, 0x18, 0x96, 0x05, 0x9A, 0x07, 0x12, 0x80, 0xE2, 0xEB, 0x27, 0xB2, 0x75]] ++
  [[0x09, 0x83, 0x2C, 0x1A, 0x1B, 0x6E, 0x5A, 0xA0, 0x52, 0x3B, 0xD6, 0xB3, 0x29, 0xE3, 0x2F, 0x84]] ++
  [[0x53, 0xD1, 0x00, 0xED, 0x20, 0xFC, 0xB1, 0x5B, 0x6A, 0xCB, 0xBE, 0x39, 0x4A, 0x4C, 0x58, 0xCF]] ++
  [[0xD0, 0xEF, 0xAA, 0xFB, 0x43, 0x4D, 0x33, 0x85, 0x45, 0xF9, 0x02, 0x7F, 0x50, 0x3C, 0x9F, 0xA8]] ++
  [[0x51, 0xA3, 0x40, 0x8F, 0x92, 0x9D, 0x38, 0xF5, 0xBC, 0xB6, 0xDA, 0x21, 0x10, 0xFF, 0xF3, 0xD2]] ++
  [[0xCD, 0x0C, 0x13, 0xEC, 0x5F, 0x97, 0x44, 0x17, 0xC4, 0xA7, 0x7E, 0x3D, 0x64, 0x5D, 0x19, 0x73]] ++
  [[0x60, 0x81, 0x4F, 0xDC, 0x22, 0x2A, 0x90, 0x88, 0x46, 0xEE, 0xB8, 0x14, 0xDE, 0x5E, 0x0B, 0xDB]] ++
  [[0xE0, 0x32, 0x3A, 0x0A, 0x49, 0x06, 0x24, 0x5C, 0xC2, 0xD3, 0xAC, 0x62, 0x91, 0x95, 0xE4, 0x79]] ++
  [[0xE7, 0xC8, 0x37, 0x6D, 0x8D, 0xD5, 0x4E, 0xA9, 0x6C, 0x56, 0xF4, 0xEA, 0x65, 0x7A, 0xAE, 0x08]] ++
  [[0xBA, 0x78, 0x25, 0x2E, 0x1C, 0xA6, 0xB4, 0xC6, 0xE8, 0xDD, 0x74, 0x1F, 0x4B, 0xBD, 0x8B, 0x8A]] ++
  [[0x70, 0x3E, 0xB5, 0x66, 0x48, 0x03, 0xF6, 0x0E, 0x61, 0x35, 0x57, 0xB9, 0x86, 0xC1, 0x1D, 0x9E]] ++
  [[0xE1, 0xF8, 0x98, 0x11, 0x69, 0xD9, 0x8E, 0x94, 0x9B, 0x1E, 0x87, 0xE9, 0xCE, 0x55, 0x28, 0xDF]] ++
  [[0x8C, 0xA1, 0x89, 0x0D, 0xBF, 0xE6, 0x42, 0x68, 0x41, 0x99, 0x2D, 0x0F, 0xB0, 0x54, 0xBB, 0x16]]

/-- `INV_SBOX` (R265), same layout. -/
def invSboxRows : List (List Byte) :=
  [[0x52, 0x09, 0x6A, 0xD5, 0x30, 0x36, 0xA5, 0x38, 0xBF, 0x40, 0xA3, 0x9E, 0x81, 0xF3, 0xD7, 0xFB]] ++
  [[0x7C, 0xE3, 0x39, 0x82, 0x9B, 0x2F, 0xFF, 0x87, 0x34, 0x8E, 0x43, 0x44, 0xC4, 0xDE, 0xE9, 0xCB]] ++
  [[0x54, 0x7B, 0x94, 0x32, 0xA6, 0xC2, 0x23, 0x3D, 0xEE, 0x4C, 0x95, 0x0B, 0x42, 0xFA, 0xC3, 0x4E]] ++
  [[0x08, 0x2E, 0xA1, 0x66, 0x28, 0xD9, 0x24, 0xB2, 0x76, 0x5B, 0xA2, 0x49, 0x6D, 0x8B, 0xD1, 0x25]] ++
  [[0x72, 0xF8, 0xF6, 0x64, 0x86, 0x68, 0x98, 0x16, 0xD4, 0xA4, 0x5C, 0xCC, 0x5D, 0x65, 0xB6, 0x92]] ++
  [[0x6C, 0x70, 0x48, 0x50, 0xFD, 0xED, 0xB9, 0xDA, 0x5E, 0x15, 0x46, 0x57, 0xA7, 0x8D, 0x9D, 0x84]] ++
  [[0x90, 0xD8, 0xAB, 0x00, 0x8C, 0xBC, 0xD3, 0x0A, 0xF7, 0xE4, 0x58, 0x05, 0xB8, 0xB3, 0x45, 0x06]] ++
  [[0xD0, 0x2C, 0x1E, 0x8F, 0xCA, 0x3F, 0x0F, 0x02, 0xC1, 0xAF, 0xBD, 0x03, 0x01, 0x13, 0x8A, 0x6B]] ++
  [[0x3A, 0x91, 0x11, 0x41, 0x4F, 0x67, 0xDC, 0xEA, 0x97, 0xF2, 0xCF, 0xCE, 0xF0, 0xB4, 0xE6, 0x73]] ++
  [[0x96, 0xAC, 0x74, 0x22, 0xE7, 0xAD, 0x35, 0x85, 0xE2, 0xF9, 0x37, 0xE8, 0x1C, 0x75, 0xDF, 0x6E]] ++
  [[0x47, 0xF1, 0x1A, 0x71, 0x1D, 0x29, 0xC5, 0x89, 0x6F, 0xB7, 0x62, 0x0E, 0xAA, 0x18, 0xBE, 0x1B]] ++
  [[0xFC, 0x56, 0x3E, 0x4B, 0xC6, 0xD2, 0x79, 0x20, 0x9A, 0xDB, 0xC0, 0xFE, 0x78, 0xCD, 0x5A, 0xF4]] ++
  [[0x1F, 0xDD, 0xA8, 0x33, 0x88, 0x07, 0xC7, 0x31, 0xB1, 0x12, 0x10, 0x59, 0x27, 0x80, 0xEC, 0x5F]] ++
  [[0x60, 0x51, 0x7F, 0xA9, 0x19, 0xB5, 0x4A, 0x0D, 0x2D, 0xE5, 0x7A, 0x9F, 0x93, 0xC9, 0x9C, 0xEF]] ++
  [[0xA0, 0xE0, 0x3B, 0x4D, 0xAE, 0x2A, 0xF5, 0xB0, 0xC8, 0xEB, 0xBB, 0x3C, 0x83, 0x53, 0x99, 0x61]] ++
  [[0x17, 0x2B, 0x04, 0x7E, 0xBA, 0x77, 0xD6, 0x26, 0xE1, 0x69, 0x14, 0x63, 0x55, 0x21, 0x0C, 0x7D]]

/-- Entry `0xRC` of a 16 by 16 table: row `R`, column `C` (R264). -/
def tableByte (rows : List (List Byte)) (a : Byte) : Byte := (rows.getD (a.toNat / 16) []).getD (a.toNat % 16) 0

/-- `SBOX[a]` (R264). -/
def sbox (a : Byte) : Byte := tableByte sboxRows a

/-- `INV_SBOX[a]` (R265). -/
def invSbox (a : Byte) : Byte := tableByte invSboxRows a

/-- `SubBytes(s)` (R267). -/
def subBytes (s : AesBlock) : AesBlock := s.mapCols (AesCol.mapBytes sbox)

/-- `InvSubBytes(s)` (R267). -/
def invSubBytes (s : AesBlock) : AesBlock := s.mapCols (AesCol.mapBytes invSbox)

/-- `ShiftRows(s)`: `s'[r + 4c] = s[r + 4((c + r) mod 4)]` (R268). -/
def shiftRows (s : AesBlock) : AesBlock :=
  ⟨⟨s.c0.b0, s.c1.b1, s.c2.b2, s.c3.b3⟩, ⟨s.c1.b0, s.c2.b1, s.c3.b2, s.c0.b3⟩,
   ⟨s.c2.b0, s.c3.b1, s.c0.b2, s.c1.b3⟩, ⟨s.c3.b0, s.c0.b1, s.c1.b2, s.c2.b3⟩⟩

/-- `InvShiftRows(s)`: `s'[r + 4c] = s[r + 4((c - r) mod 4)]` (R268). -/
def invShiftRows (s : AesBlock) : AesBlock :=
  ⟨⟨s.c0.b0, s.c3.b1, s.c2.b2, s.c1.b3⟩, ⟨s.c1.b0, s.c0.b1, s.c3.b2, s.c2.b3⟩,
   ⟨s.c2.b0, s.c1.b1, s.c0.b2, s.c3.b3⟩, ⟨s.c3.b0, s.c2.b1, s.c1.b2, s.c0.b3⟩⟩

/-- One column of `MixColumns` (R269). -/
def mixColumn (a : AesCol) : AesCol where
  b0 := gmul 2 a.b0 ^^^ gmul 3 a.b1 ^^^ a.b2 ^^^ a.b3
  b1 := a.b0 ^^^ gmul 2 a.b1 ^^^ gmul 3 a.b2 ^^^ a.b3
  b2 := a.b0 ^^^ a.b1 ^^^ gmul 2 a.b2 ^^^ gmul 3 a.b3
  b3 := gmul 3 a.b0 ^^^ a.b1 ^^^ a.b2 ^^^ gmul 2 a.b3

/-- `MixColumns(s)` (R269). -/
def mixColumns (s : AesBlock) : AesBlock := s.mapCols mixColumn

/-- One column of `InvMixColumns` (R269). -/
def invMixColumn (a : AesCol) : AesCol where
  b0 := gmul 14 a.b0 ^^^ gmul 11 a.b1 ^^^ gmul 13 a.b2 ^^^ gmul 9 a.b3
  b1 := gmul 9 a.b0 ^^^ gmul 14 a.b1 ^^^ gmul 11 a.b2 ^^^ gmul 13 a.b3
  b2 := gmul 13 a.b0 ^^^ gmul 9 a.b1 ^^^ gmul 14 a.b2 ^^^ gmul 11 a.b3
  b3 := gmul 11 a.b0 ^^^ gmul 13 a.b1 ^^^ gmul 9 a.b2 ^^^ gmul 14 a.b3

/-- `InvMixColumns(s)` (R269). -/
def invMixColumns (s : AesBlock) : AesBlock := s.mapCols invMixColumn

/-- `RCON[j]`, `j` from 1 to 10 (R271). -/
def rcon (j : Nat) : Byte := [0x01, 0x02, 0x04, 0x08, 0x10, 0x20, 0x40, 0x80, 0x1B, 0x36].getD (j - 1) 0

/-- RotWord: `[t[1], t[2], t[3], t[0]]` (R272). -/
def rotWord (t : AesCol) : AesCol := ⟨t.b1, t.b2, t.b3, t.b0⟩

/-- `w[i]` of the key schedule, `i >= 4`, from `w[i - 1]` and `w[i - 4]` (R272). -/
def nextWord (i : Nat) (previous fourBack : AesCol) : AesCol :=
  fourBack.xor <|
    if i % 4 = 0 then ((rotWord previous).mapBytes sbox).xor ⟨rcon (i / 4), 0, 0, 0⟩ else previous

/-- Round key `r` from round key `r - 1`: the words `w[4r]` to `w[4r + 3]` (R272). -/
def nextRoundKey (r : Nat) (k : AesBlock) : AesBlock :=
  let w0 := nextWord (4 * r) k.c3 k.c0
  let w1 := nextWord (4 * r + 1) w0 k.c1
  let w2 := nextWord (4 * r + 2) w1 k.c2
  let w3 := nextWord (4 * r + 3) w2 k.c3
  ⟨w0, w1, w2, w3⟩

/-- Round key `r` of `KeyExpansion(key)`; "Round key 0 is the key itself" (R272). -/
def roundKey (key : AesBlock) : Nat → AesBlock
  | 0 => key
  | r + 1 => nextRoundKey (r + 1) (roundKey key r)

/-- The state of `Cipher` after the first AddRoundKey and `n` full rounds (R273). -/
def cipherRounds (key input : AesBlock) : Nat → AesBlock
  | 0 => addRoundKey input (roundKey key 0)
  | r + 1 => addRoundKey (mixColumns (shiftRows (subBytes (cipherRounds key input r)))) (roundKey key (r + 1))

/-- `Cipher(key, in)`: ten rounds, the last without MixColumns (R273). -/
def cipher (key input : AesBlock) : AesBlock :=
  addRoundKey (shiftRows (subBytes (cipherRounds key input 9))) (roundKey key 10)

/-- Rounds `n` down to 1 of `InvCipher` (R274). -/
def invCipherRounds (key : AesBlock) : Nat → AesBlock → AesBlock
  | 0, s => s
  | r + 1, s => invCipherRounds key r (invMixColumns (addRoundKey (invSubBytes (invShiftRows s)) (roundKey key (r + 1))))

/-- `InvCipher(key, in)`: the round keys of `Cipher` in reverse order (R274). -/
def invCipher (key input : AesBlock) : AesBlock :=
  addRoundKey (invSubBytes (invShiftRows (invCipherRounds key 9 (addRoundKey input (roundKey key 10))))) (roundKey key 0)

/-- A one-block function on every 16-byte block of the data, in order (R261): no chaining, no padding. A rest of fewer
than 16 bytes has no block; the commands never pass one (R280, R284). -/
def ecb (f : AesBlock → AesBlock) : List Byte → List Byte
  | d0 :: d1 :: d2 :: d3 :: d4 :: d5 :: d6 :: d7 :: d8 :: d9 :: d10 :: d11 :: d12 :: d13 :: d14 :: d15 :: rest =>
    (f ⟨⟨d0, d1, d2, d3⟩, ⟨d4, d5, d6, d7⟩, ⟨d8, d9, d10, d11⟩, ⟨d12, d13, d14, d15⟩⟩).toBytes ++ ecb f rest
  | _ => []

/-- `encrypt_ecb(key, data)` (R260, R261). -/
def encryptEcb (key : Vector Byte 16) (data : List Byte) : List Byte := ecb (cipher (keyBlock key)) data

/-- `decrypt_ecb(key, data)` (R260, R261). -/
def decryptEcb (key : Vector Byte 16) (data : List Byte) : List Byte := ecb (invCipher (keyBlock key)) data

end Sys2Proof.Machine
end

