-- ==== Sys2Proof/Machine/Aes.lean ====
section
/-! DEFINITION. The AES unit's commands AESENC and AESDEC (44_aes_ecb.md R280 to R282). -/

namespace Sys2Proof.Machine

/-- The checks common to both commands, in the order of R280: E_KEY, E_ALIGN, E_CAP; then `OBUF <- output`. -/
def cipherCommand (s : State) (output : List Byte) : Host.Outcome State Fault Refusal :=
  conclude s <|
    raiseIf (!s.keyReady) .key <|
    raiseIf (s.ilen % 16 != 0) .align <|
    raiseIf (s.params.obufCap.exceeds s.ilen) .cap <|
    .ok (s.setObuf output)

/-- AESENC: `OBUF <- encrypt_ecb(KEY[0..15], IBUF)` (R281). -/
def execAesenc (s : State) : Host.Outcome State Fault Refusal := cipherCommand s (encryptEcb s.key s.ibuf)

/-- AESDEC: `OBUF <- decrypt_ecb(KEY[0..15], IBUF)` (R282). -/
def execAesdec (s : State) : Host.Outcome State Fault Refusal := cipherCommand s (decryptEcb s.key s.ibuf)

end Sys2Proof.Machine
end

