-- ==== Sys2Proof/Machine/Buffers.lean ====
section
/-! DEFINITION. The buffer commands ICLR, IPUSH, OCLR, OTOI (40_support_commands.md R142 to R145). -/

namespace Sys2Proof.Machine

/-- ICLR: `IBUF <- []` (R142). -/
def execIclr (s : State) : Host.Outcome State Fault Refusal := conclude s (.ok (s.setIbuf []))

/-- IPUSH: `if ILEN >= IBUF_CAP: raise E_CAP; IBUF <- IBUF ++ [imm8]` (R143). -/
def execIpush (imm8 : Byte) (s : State) : Host.Outcome State Fault Refusal :=
  conclude s <|
    raiseIf (s.params.ibufCap.exceeds (s.ilen + 1)) .cap <|
    .ok (s.setIbuf (s.ibuf ++ [imm8]))

/-- OCLR: `OBUF <- []` (R144). -/
def execOclr (s : State) : Host.Outcome State Fault Refusal := conclude s (.ok (s.setObuf []))

/-- OTOI: `if OLEN > IBUF_CAP: raise E_CAP; IBUF <- OBUF` (R145). -/
def execOtoi (s : State) : Host.Outcome State Fault Refusal :=
  conclude s <|
    raiseIf (s.params.ibufCap.exceeds s.olen) .cap <|
    .ok (s.setIbuf s.obuf)

end Sys2Proof.Machine
end

