-- ==== Sys2Proof/Machine/Control.lean ====
section
/-! DEFINITION. The control commands NOP and SRST (40_support_commands.md R140, R141, R157). -/

namespace Sys2Proof.Machine

/-- NOP: "Pseudocode: nothing" but `STATUS.ERR <- 0` (R140). -/
def execNop (s : State) : Host.Outcome State Fault Refusal := conclude s (.ok s)

/-- SRST: "every item of state takes its reset value" (R141, R352). -/
def execSrst (s : State) : Host.Outcome State Fault Refusal := conclude s (.ok s.toReset)

end Sys2Proof.Machine
end

