-- ==== Sys2Proof/Machine/Fields.lean ====
section
/-! DEFINITION. The field-table commands FCLR, FADD, FLOOK (40_support_commands.md R152 to R154). -/

namespace Sys2Proof.Machine

/-- FCLR: `FTAB <- []` (R152). -/
def execFclr (s : State) : Host.Outcome State Fault Refusal := conclude s (.ok (s.setFtab []))

/-- FADD: E_LEN, then E_CAP for the table and for the value store, then `FTAB <- FTAB ++ [(imm8, IBUF)]` (R153). -/
def execFadd (imm8 : Byte) (s : State) : Host.Outcome State Fault Refusal :=
  conclude s <|
    raiseIf (65535 < s.ilen) .len <|
    raiseIf (s.params.ftabCap.exceeds (s.fcnt + 1)) .cap <|
    raiseIf (s.params.fvalCap.exceeds (valueBytes s.ftab + s.ilen)) .cap <|
    .ok (s.setFtab (s.ftab ++ [⟨imm8, s.ibuf⟩]))

/-- FLOOK: the one record with the key to OBUF; E_NOFIELD, E_DUPKEY, E_CAP in that order (R154). -/
def execFlook (imm8 : Byte) (s : State) : Host.Outcome State Fault Refusal :=
  conclude s <|
    match recordsWith imm8 s.ftab with
    | [] => .error .noField
    | [r] => raiseIf (s.params.obufCap.exceeds r.value.length) .cap <| .ok (s.setObuf r.value)
    | _ :: _ :: _ => .error .dupKey

end Sys2Proof.Machine
end

