-- ==== Sys2Proof/Machine/Crc.lean ====
section
/-! DEFINITION. The CRC unit: the function of 41_crc16.md R181 and the command CRC16 (R185). -/

namespace Sys2Proof.Machine

/-- The table index of R181, `(r XOR zext_16(b)) AND 0x00FF`; below 256 (R182). -/
def crcIndex (r : Half) (b : Byte) : Fin 256 :=
  ⟨((r ^^^ b.setWidth 16) &&& 0x00FF#16).toNat, by
    rw [BitVec.toNat_and]
    exact Nat.lt_of_le_of_lt Nat.and_le_right (by decide)⟩

/-- `crc_step(r, b) = T[(r XOR zext_16(b)) AND 0x00FF] XOR (r >> 8)` (R181). -/
def crcStep (T : CrcTable) (r : Half) (b : Byte) : Half := T.get (crcIndex r b) ^^^ (r >>> 8)

/-- `crc16(d)`: "the left fold of `crc_step` over `d` from 0" (R181); no final XOR. -/
def crc16 (T : CrcTable) (d : List Byte) : Half := d.foldl (crcStep T) 0

/-- CRC16: `CRCR <- crc16(IBUF)` (R185). -/
def execCrc16 (s : State) : Host.Outcome State Fault Refusal :=
  conclude s (.ok (s.setCrcr (crc16 s.params.crcTable s.ibuf)))

end Sys2Proof.Machine
end

