-- ==== Sys2Proof/Machine/L1.lean ====
section
/-! DEFINITION. The L1 unit: frames (30_encoding.md R120), the pure functions of 42_l1_frame.md R201, R202, and the
commands L1PACK (R205) and L1PARSE (R210). -/

namespace Sys2Proof.Machine

/-- The start byte, "the constant 0xAB" (R204). -/
def startByte : Byte := 0xAB

/-- `pack_l1(flags, seq, payload)` (R201); defined for `len(payload) <= 65535`. -/
def packL1 (T : CrcTable) (flags : Byte) (seq : Half) (payload : List Byte) : List Byte :=
  [startByte, flags] ++ le16Bytes (half payload.length) ++ le16Bytes (crc16 T payload) ++ le16Bytes seq ++ payload

/-- The 8-byte header as decoded (R120, R121), less the start byte. -/
structure L1Header where
  flags : Byte
  length : Half
  crc : Half
  seq : Half
  deriving DecidableEq, Repr

/-- The outcomes of `parse_l1` (R202); Partial is two constructors, by whether the header is known. -/
inductive L1Result where
  /-- The first byte is not the start byte. -/
  | framing
  /-- A full-length slice is there and its CRC differs from the declared one. -/
  | checksum
  /-- Partial with the header unknown (`n < 8`). -/
  | shortHeader (remaining : Nat)
  /-- Partial with a whole header: the available slice and the bytes still needed. -/
  | shortPayload (content : List Byte) (h : L1Header) (remaining : Nat)
  /-- Complete and verified, with `extra` bytes after the frame. -/
  | complete (content : List Byte) (h : L1Header) (extra : Nat)
  deriving DecidableEq, Repr

/-- The part of `parse_l1` after the header, on the bytes from index 8 on (R202): "if avail < length" Partial, else the
CRC over exactly `length` bytes decides. -/
def parsePayload (T : CrcTable) (h : L1Header) (body : List Byte) : L1Result :=
  if body.length < h.length.toNat then
    .shortPayload body h (h.length.toNat - body.length)
  else if crc16 T (body.take h.length.toNat) = h.crc then
    .complete (body.take h.length.toNat) h (body.length - h.length.toNat)
  else
    .checksum

/-- `parse_l1(d)` (R202), its checks in the order of R211: start byte, header length, payload length, CRC. -/
def parseL1 (T : CrcTable) (d : List Byte) : L1Result :=
  match d with
  | [] => .shortHeader 8
  | d0 :: tail =>
    if d0 = startByte then
      match tail with
      | d1 :: d2 :: d3 :: d4 :: d5 :: d6 :: d7 :: body =>
        parsePayload T { flags := d1, length := le16 d2 d3, crc := le16 d4 d5, seq := le16 d6 d7 } body
      | _ => .shortHeader (8 - d.length)
    else
      .framing

/-- The header registers of L1PARSE: `L1FLAGS, L1SEQ, L1LEN, L1CRC <- flags, seq, length, crc` (R210). -/
def State.setL1Header (s : State) (h : L1Header) : State :=
  ((s.setL1Flags h.flags).setL1Seq h.seq).setL1LenCrc h.length h.crc

/-- L1PACK: E_LEN, E_CAP, then `OBUF <- pack_l1(L1FLAGS, L1SEQ, IBUF); L1LEN <- ILEN; L1CRC <- c` (R205). -/
def execL1pack (s : State) : Host.Outcome State Fault Refusal :=
  conclude s <|
    raiseIf (65535 < s.ilen) .len <|
    raiseIf (s.params.obufCap.exceeds (8 + s.ilen)) .cap <|
    .ok ((s.setObuf (packL1 s.params.crcTable s.l1flags s.l1seq s.ibuf)).setL1LenCrc (half s.ilen)
      (crc16 s.params.crcTable s.ibuf))

/-- L1PARSE: one case per outcome of `parse_l1(IBUF)` (R210). -/
def execL1parse (s : State) : Host.Outcome State Fault Refusal :=
  conclude s <|
    match parseL1 s.params.crcTable s.ibuf with
    | .framing => .error .framing
    | .checksum => .error .checksum
    | .shortHeader remaining => .ok ((s.setObuf []).setProgress (half remaining) 0 true)
    | .shortPayload content h remaining =>
      raiseIf (s.params.obufCap.exceeds content.length) .cap <|
      .ok (((s.setObuf content).setL1Header h).setProgress (half remaining) 0 true)
    | .complete content h extra =>
      raiseIf (s.params.obufCap.exceeds content.length) .cap <|
      .ok (((s.setObuf content).setL1Header h).setProgress 0 (word32 extra) false)

end Sys2Proof.Machine
end

