-- ==== Sys2Proof/Machine/L2.lean ====
section
/-! DEFINITION. The L2 unit: messages (30_encoding.md R125, R126), the pure functions of 43_l2_tlv.md R231, R232, and
the commands L2PACK (R235) and L2PARSE (R240). -/

namespace Sys2Proof.Machine

/-- One record on the wire: `[k, lo8(len(v)), hi8(len(v))] ++ v` (R126, R231), defined for `len(v) <= 65535`; no state
that keeps `Memory.wf` holds a longer value (log 13). -/
def packRecord (r : Record) : List Byte := r.key :: le16Bytes (half r.value.length) ++ r.value

/-- `pack_l2(cmd, flags, recs)`: records in order, index 0 first (R231). -/
def packL2 (cmd flags : Byte) (recs : List Record) : List Byte := cmd :: flags :: recs.flatMap packRecord

/-- The loop of `parse_l2` on the bytes from `pos` on (R232); `none` is Truncated. A pass takes at least 3 bytes (R242),
so `fuel` of the number of bytes never runs out. -/
def parseRecords : Nat → List Byte → Option (List Record)
  | _, [] => some []
  | fuel + 1, k :: b0 :: b1 :: rest =>
    if rest.length < (le16 b0 b1).toNat then
      none
    else
      (parseRecords fuel (rest.drop (le16 b0 b1).toNat)).map (⟨k, rest.take (le16 b0 b1).toNat⟩ :: ·)
  | _, _ => none

/-- `parse_l2(d)` (R232): `none` is Truncated, else `cmd`, `flags` and the records in wire order. -/
def parseL2 (d : List Byte) : Option (Byte × Byte × List Record) :=
  match d with
  | cmd :: flags :: rest => (parseRecords rest.length rest).map fun recs => (cmd, flags, recs)
  | _ => none

/-- The length of the packed message, `2 + (sum of 3 + len(value))` (R235). -/
def packedLength (recs : List Record) : Nat := 2 + (recs.map fun r => 3 + r.value.length).sum

/-- L2PACK: E_CAP, then `OBUF <- pack_l2(L2CMD, L2FLAGS, FTAB)` (R235). -/
def execL2pack (s : State) : Host.Outcome State Fault Refusal :=
  conclude s <|
    raiseIf (s.params.obufCap.exceeds (packedLength s.ftab)) .cap <|
    .ok (s.setObuf (packL2 s.l2cmd s.l2flags s.ftab))

/-- L2PARSE: E_TRUNC, E_CAP for records and for value bytes, then `L2CMD, L2FLAGS, FTAB <- cmd, flags, recs` (R240). -/
def execL2parse (s : State) : Host.Outcome State Fault Refusal :=
  conclude s <|
    match parseL2 s.ibuf with
    | none => .error .trunc
    | some (cmd, flags, recs) =>
      raiseIf (s.params.ftabCap.exceeds recs.length) .cap <|
      raiseIf (s.params.fvalCap.exceeds (valueBytes recs)) .cap <|
      .ok (((s.setL2Cmd cmd).setL2Flags flags).setFtab recs)

end Sys2Proof.Machine
end

