-- ==== Sys2Proof/Machine/Registers.lean ====
section
/-! DEFINITION. The register commands SETF, SETSEQ, SETCMD, SETL2F, SETKEY (40_support_commands.md R147 to R151). -/

namespace Sys2Proof.Machine

/-- SETF: `L1FLAGS <- imm8` (R147). -/
def execSetf (imm8 : Byte) (s : State) : Host.Outcome State Fault Refusal := conclude s (.ok (s.setL1Flags imm8))

/-- SETSEQ: `L1SEQ <- imm16` (R148). -/
def execSetseq (imm16 : Half) (s : State) : Host.Outcome State Fault Refusal := conclude s (.ok (s.setL1Seq imm16))

/-- SETCMD: `L2CMD <- imm8` (R149). -/
def execSetcmd (imm8 : Byte) (s : State) : Host.Outcome State Fault Refusal := conclude s (.ok (s.setL2Cmd imm8))

/-- SETL2F: `L2FLAGS <- imm8` (R150). -/
def execSetl2f (imm8 : Byte) (s : State) : Host.Outcome State Fault Refusal := conclude s (.ok (s.setL2Flags imm8))

/-- SETKEY: `KEY[idx] <- imm8; KVALID[idx] <- 1` (R151). -/
def execSetkey (idx : BitVec 4) (imm8 : Byte) (s : State) : Host.Outcome State Fault Refusal :=
  conclude s (.ok (s.setKeyByte idx imm8))

end Sys2Proof.Machine
end

