-- ==== Sys2Proof/Machine/Dispatch.lean ====
section
/-! DEFINITION. One arm per command (30_encoding.md R110). -/

namespace Sys2Proof.Machine

def exec (i : Instr) (s : State) : Host.Outcome State Fault Refusal :=
  match i with
  -- control
  | .nop => Sys2Proof.Machine.execNop s
  | .srst => Sys2Proof.Machine.execSrst s
  -- buffers
  | .iclr => Sys2Proof.Machine.execIclr s
  | .ipush imm8 => Sys2Proof.Machine.execIpush imm8 s
  | .oclr => Sys2Proof.Machine.execOclr s
  | .otoi => Sys2Proof.Machine.execOtoi s
  -- registers
  | .setf imm8 => Sys2Proof.Machine.execSetf imm8 s
  | .setseq imm16 => Sys2Proof.Machine.execSetseq imm16 s
  | .setcmd imm8 => Sys2Proof.Machine.execSetcmd imm8 s
  | .setl2f imm8 => Sys2Proof.Machine.execSetl2f imm8 s
  | .setkey idx imm8 => Sys2Proof.Machine.execSetkey idx imm8 s
  -- field table
  | .fclr => Sys2Proof.Machine.execFclr s
  | .fadd imm8 => Sys2Proof.Machine.execFadd imm8 s
  | .flook imm8 => Sys2Proof.Machine.execFlook imm8 s
  -- compute units
  | .crc16 => Sys2Proof.Machine.execCrc16 s
  | .l1pack => Sys2Proof.Machine.execL1pack s
  | .l1parse => Sys2Proof.Machine.execL1parse s
  | .l2pack => Sys2Proof.Machine.execL2pack s
  | .l2parse => Sys2Proof.Machine.execL2parse s
  | .aesenc => Sys2Proof.Machine.execAesenc s
  | .aesdec => Sys2Proof.Machine.execAesdec s

end Sys2Proof.Machine
end

