-- ==== Sys2Proof/Machine/Command.lean ====
section
/-! DEFINITION. What the block does with one input (20_memory.md R85, 30_encoding.md R111 to R113,
70_reset_and_hazards.md R350). -/

namespace Sys2Proof.Machine

/-- One command word: the command it decodes to, or E_ILLEGAL and nothing else (R113, R309). -/
def runWord (w : Word) (s : State) : Host.Outcome State Fault Refusal :=
  match decode w with
  | .ok i => exec i s
  | .error _ => .next (s.raiseError .illegal)

/-- One input from outside: a command word, or power-on reset, which leaves the state SRST leaves (R352). -/
def runInput (x : HostInput) (s : State) : Host.Outcome State Fault Refusal :=
  match x with
  | .command w => runWord w s
  | .powerOn => .next s.toReset

/-- The next input, run in the state that has taken it; with none the block idles: "Nothing happens in the block except
in response to a command word" (R320; log 4). -/
def runNext (s : State) : Host.Outcome State Fault Refusal :=
  match s.takeInput with
  | none => .next s
  | some (x, s') => runInput x s'

/-- The table word of `decodeTableWord` as the command word the host presents (log 11). -/
def fetchWord (nbits w : Nat) : HostInput := .command (BitVec.ofNat 32 (w % 2 ^ nbits))

end Sys2Proof.Machine
end

