-- ==== Sys2Proof/Machine/Step.lean ====
section
/-! DEFINITION. The step: one command word (60_exceptions.md R330). -/

namespace Sys2Proof.Machine

/-- One step of the block. -/
def step (s : State) : Host.Outcome State Fault Refusal := runNext s

/-- `s` with the instruction of the bits `w` presented next: the host's command port is where the block takes its next
word from (log 5). -/
def State.withFetchWord (s : State) (nbits w : Nat) : State := s.present (fetchWord nbits w)

end Sys2Proof.Machine
end

