-- ==== Sys2Proof/Machine/ReadPort.lean ====
section
/-! DEFINITION. The host's read port (10_state.md R30, R31): every item but KEY, without side effect; a read of an item
that does not exist gives 0. -/

namespace Sys2Proof.Machine

/-- What the host can ask for (R31). -/
inductive ReadItem where
  /-- A register by its number, 0 to 15 (R30). -/
  | reg (number : BitVec 4)
  /-- `IBUF[i]`. -/
  | ibufByte (i : Nat)
  /-- `OBUF[i]`. -/
  | obufByte (i : Nat)
  /-- `FTAB[i].key`. -/
  | fieldKey (i : Nat)
  /-- `len(FTAB[i].value)`. -/
  | fieldLength (i : Nat)
  /-- `FTAB[i].value[j]`. -/
  | fieldByte (i j : Nat)
  deriving DecidableEq, Repr

/-- A register by the number of R30, zero-extended to 32 bits; number 15 is reserved and reads as 0. -/
def State.readReg (s : State) (number : BitVec 4) : Word :=
  match number.toNat with
  | 0 => s.statusWord.setWidth 32
  | 1 => s.errlogWord.setWidth 32
  | 2 => word32 s.ilen
  | 3 => word32 s.olen
  | 4 => word32 s.fcnt
  | 5 => s.l1flags.setWidth 32
  | 6 => s.l1seq.setWidth 32
  | 7 => s.l1len.setWidth 32
  | 8 => s.l1crc.setWidth 32
  | 9 => s.remain.setWidth 32
  | 10 => s.xtra
  | 11 => s.l2cmd.setWidth 32
  | 12 => s.l2flags.setWidth 32
  | 13 => s.crcr.setWidth 32
  | 14 => s.kvalid.setWidth 32
  | _ => 0

/-- Byte `i` of a byte string, 0 at or beyond its length (R31). -/
def byteAt (bytes : List Byte) (i : Nat) : Byte := bytes.getD i 0

/-- The value a host read returns (R31). A read changes nothing: it is no step (log 15). -/
def State.hostRead (s : State) : ReadItem → Word
  | .reg number => s.readReg number
  | .ibufByte i => (byteAt s.ibuf i).setWidth 32
  | .obufByte i => (byteAt s.obuf i).setWidth 32
  | .fieldKey i =>
    match s.ftab[i]? with
    | some r => r.key.setWidth 32
    | none => 0
  | .fieldLength i =>
    match s.ftab[i]? with
    | some r => word32 r.value.length
    | none => 0
  | .fieldByte i j =>
    match s.ftab[i]? with
    | some r => (byteAt r.value j).setWidth 32
    | none => 0

end Sys2Proof.Machine
end

