-- ==== Sys2Proof/Safety.lean ====
section
/-! DEFINITION. What counts as a safe run of the block, in the terms claims use: no error since reset
(10_state.md R57), a verified frame (R54), the invariant every step keeps, the condition on CRC_TABLE
(41_crc16.md R188), and when two states differ in the key only (60_exceptions.md R327). -/

namespace Sys2Proof.Machine

/-- "no command has raised since the last reset": `ERRLOG = 0` (R57). -/
def State.noErrorSinceReset (s : State) : Bool := s.errlog == 0

/-- "a complete, verified frame is in OBUF" after L1PARSE: `STATUS.ERR = 0 and STATUS.PARTIAL = 0` (R54). -/
def State.frameVerified (s : State) : Bool := s.err == none && !s.isPartial

/-- The error in STATUS.ERR is in the log: R311 sets both, and only a reset clears the log (R57). -/
def State.errLogged (s : State) : Bool :=
  match s.err with
  | none => true
  | some e => s.errlog.getLsbD (e.code - 1)

/-- PARTIAL is 1 exactly when REMAIN is not 0 (R54), and XTRA is 0 on a partial frame (R44). -/
def State.progressAgrees (s : State) : Bool :=
  s.isPartial == (s.remain != 0) && (!s.isPartial || s.xtra == 0)

/-- The invariant of the block: the stores within their bounds (R32, R35, R51), the last error logged, PARTIAL, REMAIN
and XTRA in agreement. -/
def State.Inv (s : State) : Prop := s.wf = true ∧ s.errLogged = true ∧ s.progressAgrees = true

/-- The step goes on: the block neither stops nor refuses (R313). -/
def State.Steps (s : State) : Prop := ∃ t, step s = .next t

/-- A sequence of commands, one after the other (R85, R330), stopping where one stops. -/
def execSeq : List Instr → State → Host.Outcome State Fault Refusal
  | [], s => .next s
  | i :: is, s =>
    match exec i s with
    | .next s' => execSeq is s'
    | .fault r => .fault r
    | .refused r => .refused r

/-- `d` with bit `b` of byte `i` flipped. -/
def flipBit (d : List Byte) (i : Nat) (b : Fin 8) : List Byte := d.modify i (· ^^^ (1#8 <<< b.val))

/-- The source's requirement on the table (R188): the CRC of 1 to 65535 bytes changes with any single bit. -/
def DetectsSingleBit (T : CrcTable) : Prop :=
  ∀ (d : List Byte) (i : Nat) (b : Fin 8), d.length ≤ 65535 → i < d.length →
    crc16 T (flipBit d i b) ≠ crc16 T d

/-- `n` bytes (or records) fit the capacity (R18): always when it is unbounded. -/
def Fits : Cap → Nat → Prop
  | .bounded m, n => n ≤ m
  | .unbounded, _ => True

/-- The items of R30 that an error leaves as they were (R311): the buffers, the table, the key, the data registers and
PARTIAL; also the parameters and the inputs still to come. -/
structure SameButStatus (s t : State) : Prop where
  params : t.params = s.params
  inputs : t.inputs = s.inputs
  ibuf : t.ibuf = s.ibuf
  obuf : t.obuf = s.obuf
  ftab : t.ftab = s.ftab
  key : t.key = s.key
  kvalid : t.kvalid = s.kvalid
  isPartial : t.isPartial = s.isPartial
  l1flags : t.l1flags = s.l1flags
  l1seq : t.l1seq = s.l1seq
  l1len : t.l1len = s.l1len
  l1crc : t.l1crc = s.l1crc
  remain : t.remain = s.remain
  xtra : t.xtra = s.xtra
  l2cmd : t.l2cmd = s.l2cmd
  l2flags : t.l2flags = s.l2flags
  crcr : t.crcr = s.crcr

/-- The whole change of a command that raises `e` (R311): `STATUS.ERR <- k`, `ERRLOG[k] <- 1`, "and nothing else". -/
def OnlyErrorRecorded (s t : State) (e : Err) : Prop :=
  errField t.err = BitVec.ofNat 4 e.code ∧ t.errlogWord = s.errlogWord ||| (1#16 <<< e.code) ∧ SameButStatus s t

/-- The command raises `e` in `s`: it goes on to a state in which the error alone is recorded (R311). -/
def Raises (i : Instr) (s : State) (e : Err) : Prop := ∃ t, exec i s = .next t ∧ OnlyErrorRecorded s t e

/-- The 16-bit little-endian number at index `i` of a byte string (R24, R73). -/
def u16At (d : List Byte) (i : Nat) : Nat := (byteAt d i).toNat + 256 * (byteAt d (i + 1)).toNat

/-- The low and the high byte of a number below 65536, in wire order (R73). -/
def u16Bytes (n : Nat) : List Byte := [BitVec.ofNat 8 n, BitVec.ofNat 8 (n / 256)]

/-- An L1 frame, field by field (R120). -/
def wireFrame (T : CrcTable) (flags : Byte) (seq : Half) (payload : List Byte) : List Byte :=
  [0xAB, flags] ++ u16Bytes payload.length ++ u16Bytes (crc16 T payload).toNat ++ u16Bytes seq.toNat ++ payload

/-- A TLV record, field by field (R126). -/
def wireRecord (r : Record) : List Byte := [r.key] ++ u16Bytes r.value.length ++ r.value

/-- An L2 message, field by field (R125). -/
def wireMessage (cmd flags : Byte) (recs : List Record) : List Byte := [cmd, flags] ++ recs.flatMap wireRecord

/-- Every value can be described by a 16-bit length (R51). -/
def ShortValues (recs : List Record) : Prop := ∀ r ∈ recs, r.value.length ≤ 65535

/-- The `match` and `mask` columns of the opcode table (R110), row by row. -/
def opcodeRows : List (Word × Word) :=
  [(0x00000000, 0xFFFFFFFF), (0x01000000, 0xFFFFFFFF), (0x10000000, 0xFFFFFFFF), (0x11000000, 0xFFFFFF00),
   (0x12000000, 0xFFFFFFFF), (0x13000000, 0xFFFFFFFF), (0x20000000, 0xFFFFFF00), (0x21000000, 0xFFFF0000),
   (0x22000000, 0xFFFFFF00), (0x23000000, 0xFFFFFF00), (0x24000000, 0xFFF0FF00), (0x30000000, 0xFFFFFFFF),
   (0x31000000, 0xFFFFFF00), (0x32000000, 0xFFFFFF00), (0x40000000, 0xFFFFFFFF), (0x50000000, 0xFFFFFFFF),
   (0x51000000, 0xFFFFFFFF), (0x60000000, 0xFFFFFFFF), (0x61000000, 0xFFFFFFFF), (0x70000000, 0xFFFFFFFF),
   (0x71000000, 0xFFFFFFFF)]

/-- Which command can raise which error: the matrix of R340. -/
def MayRaise : Instr → Err → Bool
  | .ipush _, .cap => true
  | .otoi, .cap => true
  | .fadd _, .len => true
  | .fadd _, .cap => true
  | .flook _, .cap => true
  | .flook _, .noField => true
  | .flook _, .dupKey => true
  | .l1pack, .len => true
  | .l1pack, .cap => true
  | .l1parse, .framing => true
  | .l1parse, .checksum => true
  | .l1parse, .cap => true
  | .l2pack, .cap => true
  | .l2parse, .trunc => true
  | .l2parse, .cap => true
  | .aesenc, .align => true
  | .aesenc, .key => true
  | .aesenc, .cap => true
  | .aesdec, .align => true
  | .aesdec, .key => true
  | .aesdec, .cap => true
  | _, _ => false

/-- Byte by byte XOR (R189). -/
def xorBytes (d e : List Byte) : List Byte := List.zipWith (· ^^^ ·) d e

/-- Two states that agree on everything but the key bytes (R327). -/
def SameButKey (s t : State) : Prop := t = { s with key := t.key }

/-- Every host read gives the same value in both states (R31). -/
def SameReads (s t : State) : Prop := ∀ item, s.hostRead item = t.hostRead item

end Sys2Proof.Machine
end

