-- ==== Sys2Proof/Certificates/Slice0/Obligations.lean ====
section
/-! DEFINITION. The statements about the model, from the numbered rules of spec/. -/

open Sys2Proof Sys2Proof.Machine

/-! ## Encoding -/

/-- Words of T10 and T12 decode to the command their listing names, and the illegal words of R114 to none. -/
def Obligations.ListedWordsDecode : Prop :=
  decode 0x00000000 = .ok .nop ∧ decode 0x110000FF = .ok (.ipush 0xFF) ∧ decode 0x21000102 = .ok (.setseq 0x0102) ∧
  decode 0x240F0066 = .ok (.setkey 15 0x66) ∧ decode 0x3100000A = .ok (.fadd 10) ∧ decode 0x40000000 = .ok .crc16 ∧
  decode 0x51000000 = .ok .l1parse ∧ decode 0x61000000 = .ok .l2parse ∧ decode 0x71000000 = .ok .aesdec ∧
  decode 0x02000000 = .error .unassignedOpcode ∧ decode 0xFF000000 = .error .unassignedOpcode ∧
  decode 0x40000001 = .error .mustBeZeroBitSet ∧ decode 0x11000100 = .error .mustBeZeroBitSet ∧
  decode 0x11010000 = .error .mustBeZeroBitSet ∧ decode 0x24100000 = .error .mustBeZeroBitSet ∧
  decode 0x21010000 = .error .mustBeZeroBitSet

/-- Decoding the encoding of a command gives the command back, with every operand (R100 to R105, R110). -/
def Obligations.DecodeOfEncode : Prop := ∀ i : Instr, decode (encode i) = .ok i

/-- A word that decodes is the encoding of what it decodes to (R111): no word has two meanings, no bit is dropped. -/
def Obligations.DecodedWordIsItsEncoding : Prop := ∀ (w : Word) (i : Instr), decode w = .ok i → encode i = w

/-- R110: a word is a command exactly when `(w AND mask) = match` for a row of the table, and then for the row of the
command it decodes to and for no other. -/
def Obligations.WordIsCommandWhenMaskMatches : Prop :=
  opcodeRows.length = 21 ∧ ∀ w : Word,
    ((∃ i, decode w = .ok i) ↔ ∃ row ∈ opcodeRows, w &&& row.2 = row.1) ∧
    (∀ i, decode w = .ok i → ∀ row ∈ opcodeRows, w &&& row.2 = row.1 →
      row = (i.matchWord, i.format.mask))

/-- R113: a word that matches no row raises E_ILLEGAL and does nothing else; the next word is then accepted. -/
def Obligations.IllegalWordRaises : Prop :=
  ∀ (w : Word) (rest : List HostInput) (s : State), (∀ row ∈ opcodeRows, w &&& row.2 ≠ row.1) →
    s.inputs = .command w :: rest →
    ∃ t, step s = .next t ∧ OnlyErrorRecorded (s.setInputs rest) t .illegal

/-- R116, R117: a line whose operands do not fit assembles to no command, with the number and the bounds of the operands
of every mnemonic and pseudo-command; and FIELD loads its bytes and appends them as one record. -/
def Obligations.FieldLineAppendsRecord : Prop :=
  (∀ l : AsmLine, l.wf = false → assemble l = none) ∧
  (∀ m ∈ ["NOP", "SRST", "ICLR", "OCLR", "OTOI", "FCLR", "CRC16", "L1PACK", "L1PARSE", "L2PACK", "L2PARSE", "AESENC",
      "AESDEC"], ∀ ops, AsmLine.wf ⟨m, ops⟩ = true ↔ ops = []) ∧
  (∀ m ∈ ["IPUSH", "SETF", "SETCMD", "SETL2F", "FADD", "FLOOK"], ∀ ops,
    AsmLine.wf ⟨m, ops⟩ = true ↔ ∃ n < 256, ops = [n]) ∧
  (∀ ops, AsmLine.wf ⟨"SETSEQ", ops⟩ = true ↔ ∃ n < 65536, ops = [n]) ∧
  (∀ ops, AsmLine.wf ⟨"SETKEY", ops⟩ = true ↔ ∃ i < 16, ∃ n < 256, ops = [i, n]) ∧
  (∀ m ∈ ["IPUSHS", "ILOAD"], ∀ ops, AsmLine.wf ⟨m, ops⟩ = true ↔ ∀ b ∈ ops, b < 256) ∧
  (∀ ops, AsmLine.wf ⟨"SETKEYS", ops⟩ = true ↔ ops.length = 16 ∧ ∀ b ∈ ops, b < 256) ∧
  (∀ ops, AsmLine.wf ⟨"FIELD", ops⟩ = true ↔ ∃ k < 256, ∃ bs, ops = k :: bs ∧ ∀ b ∈ bs, b < 256) ∧
  ∀ (s : State) (k : Byte) (v : List Byte), v.length ≤ 65535 → Fits s.params.ibufCap v.length →
    Fits s.params.ftabCap (s.fcnt + 1) → Fits s.params.fvalCap (valueBytes s.ftab + v.length) →
    AsmLine.wf ⟨"FIELD", k.toNat :: v.map BitVec.toNat⟩ = true ∧
    execSeq (expand ⟨"FIELD", k.toNat :: v.map BitVec.toNat⟩) s =
      .next { s with ibuf := v, ftab := s.ftab ++ [⟨k, v⟩], err := none }

/-! ## The step -/

/-- When the word presented next decodes to a command, the step is that command in the state that has taken the word
(R85, R330). -/
def Obligations.StepRunsDecodedCommand : Prop :=
  ∀ (s : State) (w : Word) (rest : List HostInput) (i : Instr), s.inputs = .command w :: rest → decode w = .ok i →
    step s = exec i { s with inputs := rest }

/-- With nothing presented the step changes nothing (R320), and a power-on pulse gives the reset state (R350, R351). The
list of inputs and the idle step are the model's choice (logs 3 and 4); so is the zero key (log 6). -/
def Obligations.StepIdlesOrPowersOn : Prop :=
  (∀ s : State, s.inputs = [] → step s = .next s) ∧
  ∀ (s : State) (rest : List HostInput), s.inputs = .powerOn :: rest →
    step s = .next { State.resetWith s.params with inputs := rest }

/-- No step stops or refuses (R313), and it leaves the parameters (R353). That it takes the next input when one is
presented, and goes on all the same when none is, is the model's choice (logs 3 and 4). -/
def Obligations.EveryStepGoesOn : Prop :=
  ∀ s : State, ∃ t, step s = .next t ∧ t.inputs = s.inputs.tail ∧ t.params = s.params

/-! ## The commands, one rule each -/

/-- R140; a word with opcode 0x00 and a nonzero low part is illegal. -/
def Obligations.NopClearsErrOnly : Prop :=
  encode .nop = 0x00000000 ∧ (∀ s : State, exec .nop s = .next { s with err := none }) ∧
  ∀ w : Word, opField w = 0x00 → w ≠ 0x00000000 → decode w = .error .mustBeZeroBitSet

/-- R141, and that no other command clears a bit of ERRLOG or KVALID. The key bytes it leaves are the model's choice
(log 6) and are not stated here; that it keeps the inputs still to come, and that a power-on pulse is one of them, is the
model's choice too (logs 3 and 7). -/
def Obligations.SrstResetsEveryItem : Prop :=
  encode .srst = 0x01000000 ∧
  ∀ s : State, ∃ t, exec .srst s = .next t ∧ t.ibuf = [] ∧ t.obuf = [] ∧ t.ftab = [] ∧ t.kvalid = 0 ∧
    t.l1flags = 0 ∧ t.l1seq = 0 ∧ t.l1len = 0 ∧ t.l1crc = 0 ∧ t.remain = 0 ∧ t.xtra = 0 ∧ t.l2cmd = 0 ∧
    t.l2flags = 0 ∧ t.crcr = 0 ∧ t.statusWord = 0 ∧ t.errlogWord = 0 ∧ t.params = s.params ∧ t.inputs = s.inputs ∧
    (∀ rest, step { s with inputs := .powerOn :: rest } = .next { t with inputs := rest }) ∧
    ∀ (i : Instr) (t' : State) (k : Nat), i ≠ .srst → exec i s = .next t' →
      (s.errlogWord.getLsbD k = true → t'.errlogWord.getLsbD k = true) ∧
      (s.kvalid.getLsbD k = true → t'.kvalid.getLsbD k = true)

/-- R142. -/
def Obligations.IclrEmptiesIbuf : Prop :=
  encode .iclr = 0x10000000 ∧ ∀ s : State, exec .iclr s = .next { s with ibuf := [], err := none }

/-- R143. -/
def Obligations.IpushAppendsOrRaises : Prop :=
  ∀ (b : Byte) (s : State),
    encode (.ipush b) = 0x11000000 ||| b.setWidth 32 ∧
    (Fits s.params.ibufCap (s.ilen + 1) → exec (.ipush b) s = .next { s with ibuf := s.ibuf ++ [b], err := none }) ∧
    (¬ Fits s.params.ibufCap (s.ilen + 1) → Raises (.ipush b) s .cap)

/-- R144. -/
def Obligations.OclrEmptiesObuf : Prop :=
  encode .oclr = 0x12000000 ∧ ∀ s : State, exec .oclr s = .next { s with obuf := [], err := none }

/-- R145; E_CAP is impossible where IBUF holds all that OBUF can, the stores within their bounds. -/
def Obligations.OtoiCopiesOrRaises : Prop :=
  encode .otoi = 0x13000000 ∧
  ∀ s : State,
    (Fits s.params.ibufCap s.olen → exec .otoi s = .next { s with ibuf := s.obuf, err := none }) ∧
    (¬ Fits s.params.ibufCap s.olen → Raises .otoi s .cap) ∧
    (s.wf = true → (∀ n, Fits s.params.obufCap n → Fits s.params.ibufCap n) → Fits s.params.ibufCap s.olen)

/-- R147. -/
def Obligations.SetfWritesL1Flags : Prop :=
  ∀ (b : Byte) (s : State), encode (.setf b) = 0x20000000 ||| b.setWidth 32 ∧
    exec (.setf b) s = .next { s with l1flags := b, err := none }

/-- R148. -/
def Obligations.SetseqWritesL1Seq : Prop :=
  ∀ (h : Half) (s : State), encode (.setseq h) = 0x21000000 ||| h.setWidth 32 ∧
    exec (.setseq h) s = .next { s with l1seq := h, err := none }

/-- R149. -/
def Obligations.SetcmdWritesL2Cmd : Prop :=
  ∀ (b : Byte) (s : State), encode (.setcmd b) = 0x22000000 ||| b.setWidth 32 ∧
    exec (.setcmd b) s = .next { s with l2cmd := b, err := none }

/-- R150. -/
def Obligations.SetlTwofWritesL2Flags : Prop :=
  ∀ (b : Byte) (s : State), encode (.setl2f b) = 0x23000000 ||| b.setWidth 32 ∧
    exec (.setl2f b) s = .next { s with l2flags := b, err := none }

/-- R151: one key byte and its KVALID bit, the other fifteen as they were; an index of 16 or more is no command. -/
def Obligations.SetkeyWritesOneKeyByte : Prop :=
  (∀ w : Word, opField w = 0x24 → 16 ≤ (w.extractLsb' 16 8).toNat → decode w = .error .mustBeZeroBitSet) ∧
  ∀ (idx : BitVec 4) (b : Byte) (s : State),
    encode (.setkey idx b) = 0x24000000 ||| (idx.setWidth 32 <<< 16) ||| b.setWidth 32 ∧
    ∃ t, exec (.setkey idx b) s = .next t ∧
      (∀ j : Fin 16, t.key.get j = if j.val = idx.toNat then b else s.key.get j) ∧
      (∀ j : Fin 16, t.kvalid.getLsbD j.val = (decide (j.val = idx.toNat) || s.kvalid.getLsbD j.val)) ∧
      t = { s with key := t.key, kvalid := t.kvalid, err := none }

/-- R152. -/
def Obligations.FclrEmptiesFtab : Prop :=
  encode .fclr = 0x30000000 ∧
  ∀ s : State, exec .fclr s = .next { s with ftab := [], err := none } ∧
    ({ s with ftab := [], err := none } : State).statusWord.getLsbD 5 = false

/-- R153: the checks in their order, the appended record, and DUP. -/
def Obligations.FaddAppendsOrRaises : Prop :=
  ∀ (k : Byte) (s : State),
    encode (.fadd k) = 0x31000000 ||| k.setWidth 32 ∧
    (65535 < s.ilen → Raises (.fadd k) s .len) ∧
    (s.ilen ≤ 65535 → ¬ Fits s.params.ftabCap (s.fcnt + 1) → Raises (.fadd k) s .cap) ∧
    (s.ilen ≤ 65535 → ¬ Fits s.params.fvalCap (valueBytes s.ftab + s.ilen) → Raises (.fadd k) s .cap) ∧
    (s.ilen ≤ 65535 → Fits s.params.ftabCap (s.fcnt + 1) → Fits s.params.fvalCap (valueBytes s.ftab + s.ilen) →
      exec (.fadd k) s = .next { s with ftab := s.ftab ++ [⟨k, s.ibuf⟩], err := none }) ∧
    (dupFlag (s.ftab ++ [⟨k, s.ibuf⟩]) = true ↔ dupFlag s.ftab = true ∨ ∃ r ∈ s.ftab, r.key = k)

/-- R154: exactly one record with the key is copied to OBUF; none and more than one are refused. -/
def Obligations.FlookFindsOrRaises : Prop :=
  ∀ (k : Byte) (s : State),
    encode (.flook k) = 0x32000000 ||| k.setWidth 32 ∧
    ((∀ r ∈ s.ftab, r.key ≠ k) → Raises (.flook k) s .noField) ∧
    (∀ (i j : Nat) (r q : Record), i < j → s.ftab[i]? = some r → s.ftab[j]? = some q → r.key = k → q.key = k →
      Raises (.flook k) s .dupKey) ∧
    ∀ (i : Nat) (r : Record), s.ftab[i]? = some r → r.key = k → (∀ (j : Nat) (q : Record), j ≠ i → s.ftab[j]? = some q → q.key ≠ k) →
      (Fits s.params.obufCap r.value.length → exec (.flook k) s = .next { s with obuf := r.value, err := none }) ∧
      (¬ Fits s.params.obufCap r.value.length → Raises (.flook k) s .cap)

/-- R185. -/
def Obligations.CrcCommandLatchesCrc : Prop :=
  encode .crc16 = 0x40000000 ∧
  ∀ s : State, exec .crc16 s = .next { s with crcr := crc16 s.params.crcTable s.ibuf, err := none }

/-- R205: the frame of R120 in OBUF, its length and CRC in the registers. -/
def Obligations.L1packBuildsFrameOrRaises : Prop :=
  encode .l1pack = 0x50000000 ∧
  ∀ s : State,
    (65535 < s.ilen → Raises .l1pack s .len) ∧
    (s.ilen ≤ 65535 → ¬ Fits s.params.obufCap (8 + s.ilen) → Raises .l1pack s .cap) ∧
    (s.ilen ≤ 65535 → Fits s.params.obufCap (8 + s.ilen) →
      exec .l1pack s = .next { s with
        obuf := wireFrame s.params.crcTable s.l1flags s.l1seq s.ibuf
        l1len := BitVec.ofNat 16 s.ilen
        l1crc := crc16 s.params.crcTable s.ibuf
        err := none })

/-- R210 with the order of R211: every outcome of L1PARSE by what IBUF holds. XTRA is the count of the rest; for a count
of 2^32 or more its value is left open (log 10). -/
def Obligations.L1parseByContents : Prop :=
  encode .l1parse = 0x51000000 ∧ (∀ n, n < 2 ^ 32 → (word32 n).toNat = n) ∧
  ∀ (s : State) (len : Nat), len = u16At s.ibuf 2 →
    (1 ≤ s.ilen → byteAt s.ibuf 0 ≠ 0xAB → Raises .l1parse s .framing) ∧
    (s.ilen < 8 → (1 ≤ s.ilen → byteAt s.ibuf 0 = 0xAB) →
      exec .l1parse s = .next { s with
        obuf := [], remain := BitVec.ofNat 16 (8 - s.ilen), xtra := 0, isPartial := true, err := none }) ∧
    (8 ≤ s.ilen → byteAt s.ibuf 0 = 0xAB → s.ilen - 8 < len →
      (¬ Fits s.params.obufCap (s.ilen - 8) → Raises .l1parse s .cap) ∧
      (Fits s.params.obufCap (s.ilen - 8) → exec .l1parse s = .next { s with
        obuf := s.ibuf.drop 8
        l1flags := byteAt s.ibuf 1
        l1seq := BitVec.ofNat 16 (u16At s.ibuf 6)
        l1len := BitVec.ofNat 16 len
        l1crc := BitVec.ofNat 16 (u16At s.ibuf 4)
        remain := BitVec.ofNat 16 (len - (s.ilen - 8))
        xtra := 0
        isPartial := true
        err := none })) ∧
    (8 ≤ s.ilen → byteAt s.ibuf 0 = 0xAB → len ≤ s.ilen - 8 →
      ((crc16 s.params.crcTable ((s.ibuf.drop 8).take len)).toNat ≠ u16At s.ibuf 4 → Raises .l1parse s .checksum) ∧
      ((crc16 s.params.crcTable ((s.ibuf.drop 8).take len)).toNat = u16At s.ibuf 4 →
        (¬ Fits s.params.obufCap len → Raises .l1parse s .cap) ∧
        (Fits s.params.obufCap len → exec .l1parse s = .next { s with
          obuf := (s.ibuf.drop 8).take len
          l1flags := byteAt s.ibuf 1
          l1seq := BitVec.ofNat 16 (u16At s.ibuf 6)
          l1len := BitVec.ofNat 16 len
          l1crc := BitVec.ofNat 16 (u16At s.ibuf 4)
          remain := 0
          xtra := word32 (s.ilen - 8 - len)
          isPartial := false
          err := none })))

/-- R235: the message of R125 in OBUF. That every value fits a 16-bit length is part of the invariant
`StepKeepsInvariant`. -/
def Obligations.L2packBuildsMessageOrRaises : Prop :=
  encode .l2pack = 0x60000000 ∧
  ∀ s : State, ShortValues s.ftab →
    (wireMessage s.l2cmd s.l2flags s.ftab).length = 2 + (s.ftab.map fun r => 3 + r.value.length).sum ∧
    (¬ Fits s.params.obufCap (2 + (s.ftab.map fun r => 3 + r.value.length).sum) → Raises .l2pack s .cap) ∧
    (Fits s.params.obufCap (2 + (s.ftab.map fun r => 3 + r.value.length).sum) →
      exec .l2pack s = .next { s with obuf := wireMessage s.l2cmd s.l2flags s.ftab, err := none })

/-- R240 with R232, R242, R243: IBUF is accepted exactly when it is a message, that is when records tile it, and then
those records are FTAB; every other IBUF raises E_TRUNC. -/
def Obligations.L2parseAcceptsMessagesOnly : Prop :=
  encode .l2parse = 0x61000000 ∧
  ∀ s : State,
    ((¬ ∃ cmd flags recs, ShortValues recs ∧ s.ibuf = wireMessage cmd flags recs) → Raises .l2parse s .trunc) ∧
    ∀ cmd flags recs, ShortValues recs → s.ibuf = wireMessage cmd flags recs →
      (¬ Fits s.params.ftabCap recs.length → Raises .l2parse s .cap) ∧
      (¬ Fits s.params.fvalCap (valueBytes recs) → Raises .l2parse s .cap) ∧
      (Fits s.params.ftabCap recs.length → Fits s.params.fvalCap (valueBytes recs) →
        exec .l2parse s = .next { s with l2cmd := cmd, l2flags := flags, ftab := recs, err := none })

/-- R281 with the order of R280, block by block (R261). -/
def Obligations.AesencEncryptsOrRaises : Prop :=
  encode .aesenc = 0x70000000 ∧
  ∀ s : State,
    (s.kvalid ≠ 0xFFFF → Raises .aesenc s .key) ∧
    (s.kvalid = 0xFFFF → s.ilen % 16 ≠ 0 → Raises .aesenc s .align) ∧
    (s.kvalid = 0xFFFF → s.ilen % 16 = 0 → ¬ Fits s.params.obufCap s.ilen → Raises .aesenc s .cap) ∧
    (s.kvalid = 0xFFFF → s.ilen % 16 = 0 → Fits s.params.obufCap s.ilen →
      exec .aesenc s = .next { s with obuf := encryptEcb s.key s.ibuf, err := none } ∧
      (encryptEcb s.key s.ibuf).length = s.ilen) ∧
    encryptEcb s.key [] = [] ∧
    ∀ (x : AesBlock) (rest : List Byte),
      encryptEcb s.key (x.toBytes ++ rest) = (cipher (keyBlock s.key) x).toBytes ++ encryptEcb s.key rest

/-- R282 with the order of R280, block by block (R261). -/
def Obligations.AesdecDecryptsOrRaises : Prop :=
  encode .aesdec = 0x71000000 ∧
  ∀ s : State,
    (s.kvalid ≠ 0xFFFF → Raises .aesdec s .key) ∧
    (s.kvalid = 0xFFFF → s.ilen % 16 ≠ 0 → Raises .aesdec s .align) ∧
    (s.kvalid = 0xFFFF → s.ilen % 16 = 0 → ¬ Fits s.params.obufCap s.ilen → Raises .aesdec s .cap) ∧
    (s.kvalid = 0xFFFF → s.ilen % 16 = 0 → Fits s.params.obufCap s.ilen →
      exec .aesdec s = .next { s with obuf := decryptEcb s.key s.ibuf, err := none } ∧
      (decryptEcb s.key s.ibuf).length = s.ilen) ∧
    decryptEcb s.key [] = [] ∧
    ∀ (x : AesBlock) (rest : List Byte),
      decryptEcb s.key (x.toBytes ++ rest) = (invCipher (keyBlock s.key) x).toBytes ++ decryptEcb s.key rest

/-! ## Errors and status, over all commands -/

/-- R311: a command that leaves an error in STATUS.ERR has changed nothing but ERR and the error's ERRLOG bit. -/
def Obligations.ErrorEntryIsPrecise : Prop :=
  ∀ (i : Instr) (s t : State) (e : Err), exec i s = .next t → t.err = some e → OnlyErrorRecorded s t e

/-- R57: after any command but SRST, ERRLOG bit `k` is 1 exactly when it was 1 or the command raised code `k`; SRST
clears it; bit 0 and bits 15 to 11 read as 0. -/
def Obligations.ErrlogIsSticky : Prop :=
  (∀ (i : Instr) (s t : State) (k : Nat), exec i s = .next t → i ≠ .srst →
    (t.errlogWord.getLsbD k = true ↔ s.errlogWord.getLsbD k = true ∨ ∃ e, t.err = some e ∧ e.code = k)) ∧
  (∀ s t : State, exec .srst s = .next t → t.errlogWord = 0) ∧
  ∀ (s : State) (k : Nat), k = 0 ∨ 11 ≤ k → s.errlogWord.getLsbD k = false

/-- R340: a command raises an error only where the matrix has a cross, and each cross is reached. -/
def Obligations.ErrorMatrixIsExact : Prop :=
  (∀ (i : Instr) (s t : State) (e : Err), exec i s = .next t → t.err = some e → MayRaise i e = true) ∧
  ∀ (i : Instr) (e : Err), MayRaise i e = true → ∃ s : State, Raises i s e

/-- R18, R307: with unbounded capacities E_CAP is never raised; with the default ones, in a state that keeps the
invariant, only by IPUSH, FADD and L2PACK. -/
def Obligations.CapacityErrorsOnlyWhereStated : Prop :=
  (∀ (i : Instr) (s t : State), s.params.ibufCap = .unbounded → s.params.obufCap = .unbounded →
    s.params.ftabCap = .unbounded → s.params.fvalCap = .unbounded → exec i s = .next t → t.err ≠ some .cap) ∧
  ∀ (i : Instr) (s t : State), s.Inv → s.params.ibufCap = .bounded 65543 → s.params.obufCap = .bounded 65543 →
    s.params.ftabCap = .bounded 21847 → s.params.fvalCap = .bounded 65543 → exec i s = .next t →
    t.err = some .cap → (∃ b, i = .ipush b) ∨ (∃ k, i = .fadd k) ∨ i = .l2pack

/-- R52, R53, R56: the layout of STATUS. -/
def Obligations.StatusLayout : Prop :=
  ∀ (s : State) (k : Nat),
    s.statusWord.getLsbD k =
      if k < 4 then (BitVec.ofNat 4 (match s.err with | none => 0 | some e => e.code)).getLsbD k
      else if k = 4 then s.isPartial
      else if k = 5 then dupFlag s.ftab
      else false

/-- R55: DUP is 1 exactly when two different indices of FTAB hold the same key; only a command that writes FTAB
changes it. -/
def Obligations.DupMeansRepeatedKey : Prop :=
  (∀ s : State, s.statusWord.getLsbD 5 = true ↔
    (∃ (i j : Nat) (r q : Record), i ≠ j ∧ s.ftab[i]? = some r ∧ s.ftab[j]? = some q ∧ r.key = q.key)) ∧
  (∀ p : Params, (State.resetWith p).statusWord.getLsbD 5 = false) ∧
  ∀ (i : Instr) (s t : State), exec i s = .next t → t.statusWord.getLsbD 5 ≠ s.statusWord.getLsbD 5 →
    i = .fclr ∨ (∃ k, i = .fadd k) ∨ i = .l2parse ∨ i = .srst

/-! ## Who writes what: the frame of every command -/

/-- R32, R35, R49, R50, R51, R71: the only writers of the stores; and no command changes the parameters (R353). That no
command, SRST included, changes the inputs still to come is the model's choice (logs 3 and 7). -/
def Obligations.StoresHaveOnlyTheirWriters : Prop :=
  ∀ (i : Instr) (s t : State), exec i s = .next t →
    (t.ibuf ≠ s.ibuf → i = .iclr ∨ (∃ b, i = .ipush b) ∨ i = .otoi ∨ i = .srst) ∧
    (t.obuf ≠ s.obuf → i = .oclr ∨ i = .l1pack ∨ i = .l1parse ∨ i = .l2pack ∨ i = .aesenc ∨ i = .aesdec ∨
      (∃ k, i = .flook k) ∨ i = .srst) ∧
    (t.ftab ≠ s.ftab → i = .fclr ∨ (∃ k, i = .fadd k) ∨ i = .l2parse ∨ i = .srst) ∧
    (∀ j : Fin 16, t.key.get j ≠ s.key.get j → (∃ idx b, i = .setkey idx b ∧ idx.toNat = j.val) ∨ i = .srst) ∧
    (∀ j : Fin 16, t.kvalid.getLsbD j.val ≠ s.kvalid.getLsbD j.val →
      (∃ idx b, i = .setkey idx b ∧ idx.toNat = j.val) ∨ i = .srst) ∧
    t.params = s.params ∧ t.inputs = s.inputs

/-- The table of R48, and R54 for PARTIAL: the only writers of the registers. -/
def Obligations.RegistersHaveOnlyTheirWriters : Prop :=
  ∀ (i : Instr) (s t : State), exec i s = .next t → i ≠ .srst →
    (t.l1flags ≠ s.l1flags → (∃ b, i = .setf b) ∨ i = .l1parse) ∧
    (t.l1seq ≠ s.l1seq → (∃ h, i = .setseq h) ∨ i = .l1parse) ∧
    (t.l1len ≠ s.l1len → i = .l1pack ∨ i = .l1parse) ∧
    (t.l1crc ≠ s.l1crc → i = .l1pack ∨ i = .l1parse) ∧
    (t.remain ≠ s.remain → i = .l1parse) ∧
    (t.xtra ≠ s.xtra → i = .l1parse) ∧
    (t.isPartial ≠ s.isPartial → i = .l1parse) ∧
    (t.l2cmd ≠ s.l2cmd → (∃ b, i = .setcmd b) ∨ i = .l2parse) ∧
    (t.l2flags ≠ s.l2flags → (∃ b, i = .setl2f b) ∨ i = .l2parse) ∧
    (t.crcr ≠ s.crcr → i = .crc16)

/-- R83, R314: a compute command issued twice with nothing between leaves what it left the first time, an error too. -/
def Obligations.ComputeCommandsRepeat : Prop :=
  ∀ (i : Instr) (s t : State),
    i = .crc16 ∨ i = .l1pack ∨ i = .l1parse ∨ i = .l2pack ∨ i = .l2parse ∨ i = .aesenc ∨ i = .aesdec →
    exec i s = .next t → exec i t = .next t

/-! ## Reset, reads, invariant -/

/-- R59: the values after reset, for every instance and for the default one. KEY has none in the spec (log 6). -/
def Obligations.ResetValues : Prop :=
  State.reset = State.resetWith Params.default ∧
  ∀ p : Params, (State.resetWith p).statusWord = 0 ∧ (State.resetWith p).errlogWord = 0 ∧
    (State.resetWith p).ibuf = [] ∧ (State.resetWith p).obuf = [] ∧ (State.resetWith p).ftab = [] ∧
    (State.resetWith p).l1flags = 0 ∧ (State.resetWith p).l1seq = 0 ∧ (State.resetWith p).l1len = 0 ∧
    (State.resetWith p).l1crc = 0 ∧ (State.resetWith p).remain = 0 ∧ (State.resetWith p).xtra = 0 ∧
    (State.resetWith p).l2cmd = 0 ∧ (State.resetWith p).l2flags = 0 ∧ (State.resetWith p).crcr = 0 ∧
    (State.resetWith p).kvalid = 0

/-- R352: SRST and power-on reset leave the same state, whatever the state before; KEY, which has no value then, is left
out of the second clause (log 6). -/
def Obligations.SrstEqualsPowerOn : Prop :=
  ∀ (s : State) (rest : List HostInput),
    exec .srst { s with inputs := rest } = step { s with inputs := .powerOn :: rest } ∧
    (∀ s' : State, s'.params = s.params → s'.inputs = s.inputs →
      ∃ t t', exec .srst s = .next t ∧ exec .srst s' = .next t' ∧ SameButKey t t') ∧
    ∃ t, exec .srst s = .next t ∧ t.kvalid = 0 ∧ t.errlogWord = 0

/-- R30, R31: what a read of each register number gives, and 0 for what does not exist. -/
def Obligations.HostReadsItems : Prop :=
  ∀ s : State,
    s.hostRead (.reg 0) = s.statusWord.setWidth 32 ∧ s.hostRead (.reg 1) = s.errlogWord.setWidth 32 ∧
    (s.ilen < 2 ^ 32 → (s.hostRead (.reg 2)).toNat = s.ilen) ∧
    (s.olen < 2 ^ 32 → (s.hostRead (.reg 3)).toNat = s.olen) ∧
    (s.fcnt < 2 ^ 32 → (s.hostRead (.reg 4)).toNat = s.fcnt) ∧
    s.hostRead (.reg 5) = s.l1flags.setWidth 32 ∧ s.hostRead (.reg 6) = s.l1seq.setWidth 32 ∧
    s.hostRead (.reg 7) = s.l1len.setWidth 32 ∧ s.hostRead (.reg 8) = s.l1crc.setWidth 32 ∧
    s.hostRead (.reg 9) = s.remain.setWidth 32 ∧ s.hostRead (.reg 10) = s.xtra ∧
    s.hostRead (.reg 11) = s.l2cmd.setWidth 32 ∧ s.hostRead (.reg 12) = s.l2flags.setWidth 32 ∧
    s.hostRead (.reg 13) = s.crcr.setWidth 32 ∧ s.hostRead (.reg 14) = s.kvalid.setWidth 32 ∧
    s.hostRead (.reg 15) = 0 ∧
    (∀ (i : Nat) (b : Byte), s.ibuf[i]? = some b → s.hostRead (.ibufByte i) = b.setWidth 32) ∧
    (∀ (i : Nat) (b : Byte), s.obuf[i]? = some b → s.hostRead (.obufByte i) = b.setWidth 32) ∧
    (∀ i, s.ilen ≤ i → s.hostRead (.ibufByte i) = 0) ∧
    (∀ i, s.olen ≤ i → s.hostRead (.obufByte i) = 0) ∧
    (∀ (i : Nat) (r : Record), s.ftab[i]? = some r → s.hostRead (.fieldKey i) = r.key.setWidth 32 ∧
      (r.value.length < 2 ^ 32 → (s.hostRead (.fieldLength i)).toNat = r.value.length) ∧
      (∀ (j : Nat) (b : Byte), r.value[j]? = some b → s.hostRead (.fieldByte i j) = b.setWidth 32) ∧
      ∀ j, r.value.length ≤ j → s.hostRead (.fieldByte i j) = 0) ∧
    ∀ i, s.fcnt ≤ i → s.hostRead (.fieldKey i) = 0 ∧ s.hostRead (.fieldLength i) = 0 ∧
      ∀ j, s.hostRead (.fieldByte i j) = 0

/-- R30: two states of one instance that agree on the key, on what is still to come and on every host read are the same
state. Counts are below 2^32, where the 32-bit registers show them (log 10). -/
def Obligations.ReadsAndKeyDetermineState : Prop :=
  ∀ s t : State, s.params = t.params → s.inputs = t.inputs → s.key = t.key →
    s.ilen < 2 ^ 32 → s.olen < 2 ^ 32 → s.fcnt < 2 ^ 32 → ShortValues s.ftab →
    t.ilen < 2 ^ 32 → t.olen < 2 ^ 32 → t.fcnt < 2 ^ 32 → ShortValues t.ftab →
    SameReads s t → s = t

/-- The invariant holds after reset, for every instance. -/
def Obligations.ResetMeetsInvariant : Prop := ∀ p : Params, (State.resetWith p).Inv

/-- R32, R35, R51, R54: every step keeps the bounds of the stores, the logging of the last error, and the agreement of
PARTIAL, REMAIN and XTRA. -/
def Obligations.StepKeepsInvariant : Prop := ∀ s t : State, s.Inv → step s = .next t → t.Inv

/-- R327, R146: two states that differ in the key only are told apart by no read, and stay so under every command but
AESENC and AESDEC, and under those two as long as a key byte is unwritten. -/
def Obligations.KeyIsConfidential : Prop :=
  (∀ s t : State, SameButKey s t → SameReads s t) ∧
  ∀ (i : Instr) (s t s' t' : State), SameButKey s t → (i ≠ .aesenc ∧ i ≠ .aesdec ∨ s.kvalid ≠ 0xFFFF) →
    exec i s = .next s' → exec i t = .next t' → SameButKey s' t'

/-- R50, R355: KVALID is 0xFFFF after SETKEYs exactly when every index was valid before or is among them, in any
order and with repeats. -/
def Obligations.KeyReadyWhenAllWritten : Prop :=
  ∀ (writes : List (BitVec 4 × Byte)) (s : State), ∃ t,
    execSeq (writes.map fun w => .setkey w.1 w.2) s = .next t ∧
    (t.kvalid = 0xFFFF ↔ ∀ j : BitVec 4, s.kvalid.getLsbD j.toNat = true ∨ ∃ b, (j, b) ∈ writes)

/-! ## The CRC unit -/

/-- R181, R186, R187: the recurrence from 0, byte by byte, and the two shortest inputs, for every table. -/
def Obligations.CrcFollowsRecurrence : Prop :=
  ∀ T : CrcTable, crc16 T [] = 0 ∧
    (∀ (d : List Byte) (b : Byte), crc16 T (d ++ [b]) =
      T.get ⟨((crc16 T d).toNat % 256) ^^^ b.toNat, Nat.xor_lt_two_pow (n := 8)
        (Nat.mod_lt _ (by decide)) b.isLt⟩ ^^^ (crc16 T d >>> 8)) ∧
    (∀ d e : List Byte, crc16 T (d ++ e) = e.foldl (crcStep T) (crc16 T d)) ∧
    ∀ b : Byte, crc16 T [b] = T.get b.toFin

/-- R183, R184: the default table is `table(0xA001)`, with the spot values of R184, and "123456789" gives 0xBB3D. -/
def Obligations.DefaultTableIsGenerated : Prop :=
  defaultCrcTable = crcTableOf 0xA001 ∧ defaultCrcTable.get 0x01 = 0xC0C1 ∧ defaultCrcTable.get 0x31 = 0xD4C1 ∧
  defaultCrcTable.get 0x80 = 0xA001 ∧ defaultCrcTable.get 0xFF = 0x4040 ∧
  crc16 defaultCrcTable [0x31, 0x32, 0x33, 0x34, 0x35, 0x36, 0x37, 0x38, 0x39] = 0xBB3D

/-- R189: a generated table is linear, so is the CRC on inputs of one length, and the table form equals the bit-serial
form. -/
def Obligations.GeneratedCrcIsLinear : Prop :=
  ∀ P : Half,
    (crcTableOf P).get 0 = 0 ∧
    (∀ a b : Byte, (crcTableOf P).get (a ^^^ b).toFin = (crcTableOf P).get a.toFin ^^^ (crcTableOf P).get b.toFin) ∧
    (∀ d e : List Byte, d.length = e.length →
      crc16 (crcTableOf P) (xorBytes d e) = crc16 (crcTableOf P) d ^^^ crc16 (crcTableOf P) e) ∧
    ∀ (r : Half) (b : Byte), crcStep (crcTableOf P) r b = crcShifts P 8 (r ^^^ b.setWidth 16)

/-- R190, R188: a table generated from a polynomial with bit 15 set detects every single-bit error; the default table
is one. -/
def Obligations.ReflectedTablesDetectSingleBits : Prop :=
  (∀ P : Half, P.getLsbD 15 = true → DetectsSingleBit (crcTableOf P)) ∧ DetectsSingleBit defaultCrcTable

/-! ## The L1 unit -/

/-- R218: parsing a packed frame gives back payload, flags and sequence number, for every table; in commands,
L1PACK, OTOI, L1PARSE. -/
def Obligations.L1RoundTrip : Prop :=
  (∀ (T : CrcTable) (flags : Byte) (seq : Half) (d : List Byte), d.length ≤ 65535 →
    parseL1 T (packL1 T flags seq d) = .complete d ⟨flags, BitVec.ofNat 16 d.length, crc16 T d, seq⟩ 0) ∧
  ∀ s : State, s.ilen ≤ 65535 → Fits s.params.obufCap (8 + s.ilen) → Fits s.params.ibufCap (8 + s.ilen) →
    ∃ t, execSeq [.l1pack, .otoi, .l1parse] s = .next t ∧ t.err = none ∧ t.obuf = s.ibuf ∧
      t.l1flags = s.l1flags ∧ t.l1seq = s.l1seq ∧ t.remain = 0 ∧ t.xtra = 0 ∧ t.isPartial = false

/-- R219: cut a packed frame anywhere; the first part is Partial with the stated count, never an error. -/
def Obligations.L1FragmentsArePartial : Prop :=
  ∀ (T : CrcTable) (flags : Byte) (seq : Half) (d : List Byte) (k : Nat), d.length ≤ 65535 → k < 8 + d.length →
    (k < 8 → parseL1 T ((packL1 T flags seq d).take k) = .shortHeader (8 - k)) ∧
    (8 ≤ k → parseL1 T ((packL1 T flags seq d).take k) =
      .shortPayload (d.take (k - 8)) ⟨flags, BitVec.ofNat 16 d.length, crc16 T d, seq⟩ (8 + d.length - k))

/-- R220: a flipped payload bit is always a checksum error exactly when the table meets the condition of R188. -/
def Obligations.PayloadFlipIsChecksumError : Prop :=
  ∀ T : CrcTable,
    (∀ (flags : Byte) (seq : Half) (d : List Byte) (i : Nat) (b : Fin 8), d.length ≤ 65535 → i < d.length →
      parseL1 T (flipBit (packL1 T flags seq d) (8 + i) b) = .checksum) ↔ DetectsSingleBit T

/-- R362: after a framing or checksum error, L1PARSE raises the same error again however many bytes are appended. -/
def Obligations.BadFrameStaysBad : Prop :=
  ∀ (s : State) (more : List Byte) (e : Err), e = .framing ∨ e = .checksum → Raises .l1parse s e →
    Raises .l1parse { s with ibuf := s.ibuf ++ more } e

/-! ## The L2 unit -/

/-- R247: parsing a packed message gives back its records, repeated keys or not; packing a parsed message gives back its
bytes; in commands, L2PACK, OTOI, L2PARSE. -/
def Obligations.L2RoundTrip : Prop :=
  (∀ (cmd flags : Byte) (recs : List Record), ShortValues recs →
    parseL2 (packL2 cmd flags recs) = some (cmd, flags, recs)) ∧
  (∀ (d : List Byte) (cmd flags : Byte) (recs : List Record), parseL2 d = some (cmd, flags, recs) →
    packL2 cmd flags recs = d ∧ ShortValues recs) ∧
  ∀ s : State, s.Inv → Fits s.params.obufCap (packedLength s.ftab) → Fits s.params.ibufCap (packedLength s.ftab) →
    ∃ t, execSeq [.l2pack, .otoi, .l2parse] s = .next t ∧ t.err = none ∧ t.l2cmd = s.l2cmd ∧
      t.l2flags = s.l2flags ∧ t.ftab = s.ftab

/-! ## The AES unit -/

/-- R274: for each key, `Cipher` and `InvCipher` are inverse to each other. -/
def Obligations.CipherAndInverseCancel : Prop :=
  ∀ key x : AesBlock, invCipher key (cipher key x) = x ∧ cipher key (invCipher key x) = x

/-- R283: ECB round trip on block-aligned data; in commands, AESENC, OTOI, AESDEC. -/
def Obligations.EcbRoundTrip : Prop :=
  (∀ (key : Vector Byte 16) (d : List Byte), d.length % 16 = 0 →
    decryptEcb key (encryptEcb key d) = d ∧ encryptEcb key (decryptEcb key d) = d) ∧
  ∀ s : State, s.kvalid = 0xFFFF → s.ilen % 16 = 0 → Fits s.params.obufCap s.ilen → Fits s.params.ibufCap s.ilen →
    ∃ t, execSeq [.aesenc, .otoi, .aesdec] s = .next t ∧ t.err = none ∧ t.obuf = s.ibuf

/-- R265, R266: `SBOX` is the affine image of the inverse in GF(2^8), and `INV_SBOX` inverts it. -/
def Obligations.SboxIsAffineInverse : Prop :=
  sbox 0 = 0x63 ∧
  ∀ a : Byte, invSbox (sbox a) = a ∧ sbox (invSbox a) = a ∧ sbox a ≠ a ∧
    (a ≠ 0 → ∃ b : Byte, gmul a b = 1 ∧
      sbox a = b ^^^ b.rotateLeft 1 ^^^ b.rotateLeft 2 ^^^ b.rotateLeft 3 ^^^ b.rotateLeft 4 ^^^ 0x63)

/-- R272, R277: check values of FIPS 197 and of the spec's script. -/
def Obligations.AesCheckValues : Prop :=
  (roundKey ⟨⟨0x2B, 0x7E, 0x15, 0x16⟩, ⟨0x28, 0xAE, 0xD2, 0xA6⟩, ⟨0xAB, 0xF7, 0x15, 0x88⟩, ⟨0x09, 0xCF, 0x4F, 0x3C⟩⟩ 10) =
    ⟨⟨0xD0, 0x14, 0xF9, 0xA8⟩, ⟨0xC9, 0xEE, 0x25, 0x89⟩, ⟨0xE1, 0x3F, 0x0C, 0xC8⟩, ⟨0xB6, 0x63, 0x0C, 0xA6⟩⟩ ∧
  cipher ⟨⟨0, 1, 2, 3⟩, ⟨4, 5, 6, 7⟩, ⟨8, 9, 10, 11⟩, ⟨12, 13, 14, 15⟩⟩
      ⟨⟨0x00, 0x11, 0x22, 0x33⟩, ⟨0x44, 0x55, 0x66, 0x77⟩, ⟨0x88, 0x99, 0xAA, 0xBB⟩, ⟨0xCC, 0xDD, 0xEE, 0xFF⟩⟩ =
    ⟨⟨0x69, 0xC4, 0xE0, 0xD8⟩, ⟨0x6A, 0x7B, 0x04, 0x30⟩, ⟨0xD8, 0xCD, 0xB7, 0x80⟩, ⟨0x70, 0xB4, 0xC5, 0x5A⟩⟩ ∧
  cipher ⟨⟨0, 0, 0, 0⟩, ⟨0, 0, 0, 0⟩, ⟨0, 0, 0, 0⟩, ⟨0, 0, 0, 0⟩⟩ ⟨⟨0, 0, 0, 0⟩, ⟨0, 0, 0, 0⟩, ⟨0, 0, 0, 0⟩, ⟨0, 0, 0, 0⟩⟩ =
    ⟨⟨0x66, 0xE9, 0x4B, 0xD4⟩, ⟨0xEF, 0x8A, 0x2C, 0x3B⟩, ⟨0x88, 0x4C, 0xFA, 0x59⟩, ⟨0xCA, 0x34, 0x2B, 0x2E⟩⟩ ∧
  invCipher ⟨⟨0, 0, 0, 0⟩, ⟨0, 0, 0, 0⟩, ⟨0, 0, 0, 0⟩, ⟨0, 0, 0, 0⟩⟩ ⟨⟨0, 0, 0, 0⟩, ⟨0, 0, 0, 0⟩, ⟨0, 0, 0, 0⟩, ⟨0, 0, 0, 0⟩⟩ =
    ⟨⟨0x14, 0x0F, 0x0F, 0x10⟩, ⟨0x11, 0xB5, 0x22, 0x3D⟩, ⟨0x79, 0x58, 0x77, 0x17⟩, ⟨0xFF, 0xD9, 0xEC, 0x3A⟩⟩
end

