-- ==== Sys2Proof/Laws/State.lean ====
section
/-! SUPPORT. One lemma per field per update of State, so that no later proof unfolds a record update. -/

namespace Sys2Proof.Machine

variable (s : State)

@[simp] theorem setIbuf_params (v : List Byte) : (s.setIbuf v).params = s.params := rfl
@[simp] theorem setIbuf_inputs (v : List Byte) : (s.setIbuf v).inputs = s.inputs := rfl
@[simp] theorem setIbuf_ibuf (v : List Byte) : (s.setIbuf v).ibuf = v := rfl
@[simp] theorem setIbuf_obuf (v : List Byte) : (s.setIbuf v).obuf = s.obuf := rfl
@[simp] theorem setIbuf_ftab (v : List Byte) : (s.setIbuf v).ftab = s.ftab := rfl
@[simp] theorem setIbuf_key (v : List Byte) : (s.setIbuf v).key = s.key := rfl
@[simp] theorem setIbuf_kvalid (v : List Byte) : (s.setIbuf v).kvalid = s.kvalid := rfl
@[simp] theorem setIbuf_err (v : List Byte) : (s.setIbuf v).err = s.err := rfl
@[simp] theorem setIbuf_isPartial (v : List Byte) : (s.setIbuf v).isPartial = s.isPartial := rfl
@[simp] theorem setIbuf_errlog (v : List Byte) : (s.setIbuf v).errlog = s.errlog := rfl
@[simp] theorem setIbuf_l1flags (v : List Byte) : (s.setIbuf v).l1flags = s.l1flags := rfl
@[simp] theorem setIbuf_l1seq (v : List Byte) : (s.setIbuf v).l1seq = s.l1seq := rfl
@[simp] theorem setIbuf_l1len (v : List Byte) : (s.setIbuf v).l1len = s.l1len := rfl
@[simp] theorem setIbuf_l1crc (v : List Byte) : (s.setIbuf v).l1crc = s.l1crc := rfl
@[simp] theorem setIbuf_remain (v : List Byte) : (s.setIbuf v).remain = s.remain := rfl
@[simp] theorem setIbuf_xtra (v : List Byte) : (s.setIbuf v).xtra = s.xtra := rfl
@[simp] theorem setIbuf_l2cmd (v : List Byte) : (s.setIbuf v).l2cmd = s.l2cmd := rfl
@[simp] theorem setIbuf_l2flags (v : List Byte) : (s.setIbuf v).l2flags = s.l2flags := rfl
@[simp] theorem setIbuf_crcr (v : List Byte) : (s.setIbuf v).crcr = s.crcr := rfl

@[simp] theorem setObuf_params (v : List Byte) : (s.setObuf v).params = s.params := rfl
@[simp] theorem setObuf_inputs (v : List Byte) : (s.setObuf v).inputs = s.inputs := rfl
@[simp] theorem setObuf_ibuf (v : List Byte) : (s.setObuf v).ibuf = s.ibuf := rfl
@[simp] theorem setObuf_obuf (v : List Byte) : (s.setObuf v).obuf = v := rfl
@[simp] theorem setObuf_ftab (v : List Byte) : (s.setObuf v).ftab = s.ftab := rfl
@[simp] theorem setObuf_key (v : List Byte) : (s.setObuf v).key = s.key := rfl
@[simp] theorem setObuf_kvalid (v : List Byte) : (s.setObuf v).kvalid = s.kvalid := rfl
@[simp] theorem setObuf_err (v : List Byte) : (s.setObuf v).err = s.err := rfl
@[simp] theorem setObuf_isPartial (v : List Byte) : (s.setObuf v).isPartial = s.isPartial := rfl
@[simp] theorem setObuf_errlog (v : List Byte) : (s.setObuf v).errlog = s.errlog := rfl
@[simp] theorem setObuf_l1flags (v : List Byte) : (s.setObuf v).l1flags = s.l1flags := rfl
@[simp] theorem setObuf_l1seq (v : List Byte) : (s.setObuf v).l1seq = s.l1seq := rfl
@[simp] theorem setObuf_l1len (v : List Byte) : (s.setObuf v).l1len = s.l1len := rfl
@[simp] theorem setObuf_l1crc (v : List Byte) : (s.setObuf v).l1crc = s.l1crc := rfl
@[simp] theorem setObuf_remain (v : List Byte) : (s.setObuf v).remain = s.remain := rfl
@[simp] theorem setObuf_xtra (v : List Byte) : (s.setObuf v).xtra = s.xtra := rfl
@[simp] theorem setObuf_l2cmd (v : List Byte) : (s.setObuf v).l2cmd = s.l2cmd := rfl
@[simp] theorem setObuf_l2flags (v : List Byte) : (s.setObuf v).l2flags = s.l2flags := rfl
@[simp] theorem setObuf_crcr (v : List Byte) : (s.setObuf v).crcr = s.crcr := rfl

@[simp] theorem setFtab_params (v : List Record) : (s.setFtab v).params = s.params := rfl
@[simp] theorem setFtab_inputs (v : List Record) : (s.setFtab v).inputs = s.inputs := rfl
@[simp] theorem setFtab_ibuf (v : List Record) : (s.setFtab v).ibuf = s.ibuf := rfl
@[simp] theorem setFtab_obuf (v : List Record) : (s.setFtab v).obuf = s.obuf := rfl
@[simp] theorem setFtab_ftab (v : List Record) : (s.setFtab v).ftab = v := rfl
@[simp] theorem setFtab_key (v : List Record) : (s.setFtab v).key = s.key := rfl
@[simp] theorem setFtab_kvalid (v : List Record) : (s.setFtab v).kvalid = s.kvalid := rfl
@[simp] theorem setFtab_err (v : List Record) : (s.setFtab v).err = s.err := rfl
@[simp] theorem setFtab_isPartial (v : List Record) : (s.setFtab v).isPartial = s.isPartial := rfl
@[simp] theorem setFtab_errlog (v : List Record) : (s.setFtab v).errlog = s.errlog := rfl
@[simp] theorem setFtab_l1flags (v : List Record) : (s.setFtab v).l1flags = s.l1flags := rfl
@[simp] theorem setFtab_l1seq (v : List Record) : (s.setFtab v).l1seq = s.l1seq := rfl
@[simp] theorem setFtab_l1len (v : List Record) : (s.setFtab v).l1len = s.l1len := rfl
@[simp] theorem setFtab_l1crc (v : List Record) : (s.setFtab v).l1crc = s.l1crc := rfl
@[simp] theorem setFtab_remain (v : List Record) : (s.setFtab v).remain = s.remain := rfl
@[simp] theorem setFtab_xtra (v : List Record) : (s.setFtab v).xtra = s.xtra := rfl
@[simp] theorem setFtab_l2cmd (v : List Record) : (s.setFtab v).l2cmd = s.l2cmd := rfl
@[simp] theorem setFtab_l2flags (v : List Record) : (s.setFtab v).l2flags = s.l2flags := rfl
@[simp] theorem setFtab_crcr (v : List Record) : (s.setFtab v).crcr = s.crcr := rfl

@[simp] theorem setKeyByte_params (i : BitVec 4) (v : Byte) : (s.setKeyByte i v).params = s.params := rfl
@[simp] theorem setKeyByte_inputs (i : BitVec 4) (v : Byte) : (s.setKeyByte i v).inputs = s.inputs := rfl
@[simp] theorem setKeyByte_ibuf (i : BitVec 4) (v : Byte) : (s.setKeyByte i v).ibuf = s.ibuf := rfl
@[simp] theorem setKeyByte_obuf (i : BitVec 4) (v : Byte) : (s.setKeyByte i v).obuf = s.obuf := rfl
@[simp] theorem setKeyByte_ftab (i : BitVec 4) (v : Byte) : (s.setKeyByte i v).ftab = s.ftab := rfl
@[simp] theorem setKeyByte_key (i : BitVec 4) (v : Byte) : (s.setKeyByte i v).key = setKeyAt s.key i v := rfl
@[simp] theorem setKeyByte_kvalid (i : BitVec 4) (v : Byte) : (s.setKeyByte i v).kvalid = setValidBit s.kvalid i := rfl
@[simp] theorem setKeyByte_err (i : BitVec 4) (v : Byte) : (s.setKeyByte i v).err = s.err := rfl
@[simp] theorem setKeyByte_isPartial (i : BitVec 4) (v : Byte) : (s.setKeyByte i v).isPartial = s.isPartial := rfl
@[simp] theorem setKeyByte_errlog (i : BitVec 4) (v : Byte) : (s.setKeyByte i v).errlog = s.errlog := rfl
@[simp] theorem setKeyByte_l1flags (i : BitVec 4) (v : Byte) : (s.setKeyByte i v).l1flags = s.l1flags := rfl
@[simp] theorem setKeyByte_l1seq (i : BitVec 4) (v : Byte) : (s.setKeyByte i v).l1seq = s.l1seq := rfl
@[simp] theorem setKeyByte_l1len (i : BitVec 4) (v : Byte) : (s.setKeyByte i v).l1len = s.l1len := rfl
@[simp] theorem setKeyByte_l1crc (i : BitVec 4) (v : Byte) : (s.setKeyByte i v).l1crc = s.l1crc := rfl
@[simp] theorem setKeyByte_remain (i : BitVec 4) (v : Byte) : (s.setKeyByte i v).remain = s.remain := rfl
@[simp] theorem setKeyByte_xtra (i : BitVec 4) (v : Byte) : (s.setKeyByte i v).xtra = s.xtra := rfl
@[simp] theorem setKeyByte_l2cmd (i : BitVec 4) (v : Byte) : (s.setKeyByte i v).l2cmd = s.l2cmd := rfl
@[simp] theorem setKeyByte_l2flags (i : BitVec 4) (v : Byte) : (s.setKeyByte i v).l2flags = s.l2flags := rfl
@[simp] theorem setKeyByte_crcr (i : BitVec 4) (v : Byte) : (s.setKeyByte i v).crcr = s.crcr := rfl

@[simp] theorem setL1Flags_params (v : Byte) : (s.setL1Flags v).params = s.params := rfl
@[simp] theorem setL1Flags_inputs (v : Byte) : (s.setL1Flags v).inputs = s.inputs := rfl
@[simp] theorem setL1Flags_ibuf (v : Byte) : (s.setL1Flags v).ibuf = s.ibuf := rfl
@[simp] theorem setL1Flags_obuf (v : Byte) : (s.setL1Flags v).obuf = s.obuf := rfl
@[simp] theorem setL1Flags_ftab (v : Byte) : (s.setL1Flags v).ftab = s.ftab := rfl
@[simp] theorem setL1Flags_key (v : Byte) : (s.setL1Flags v).key = s.key := rfl
@[simp] theorem setL1Flags_kvalid (v : Byte) : (s.setL1Flags v).kvalid = s.kvalid := rfl
@[simp] theorem setL1Flags_err (v : Byte) : (s.setL1Flags v).err = s.err := rfl
@[simp] theorem setL1Flags_isPartial (v : Byte) : (s.setL1Flags v).isPartial = s.isPartial := rfl
@[simp] theorem setL1Flags_errlog (v : Byte) : (s.setL1Flags v).errlog = s.errlog := rfl
@[simp] theorem setL1Flags_l1flags (v : Byte) : (s.setL1Flags v).l1flags = v := rfl
@[simp] theorem setL1Flags_l1seq (v : Byte) : (s.setL1Flags v).l1seq = s.l1seq := rfl
@[simp] theorem setL1Flags_l1len (v : Byte) : (s.setL1Flags v).l1len = s.l1len := rfl
@[simp] theorem setL1Flags_l1crc (v : Byte) : (s.setL1Flags v).l1crc = s.l1crc := rfl
@[simp] theorem setL1Flags_remain (v : Byte) : (s.setL1Flags v).remain = s.remain := rfl
@[simp] theorem setL1Flags_xtra (v : Byte) : (s.setL1Flags v).xtra = s.xtra := rfl
@[simp] theorem setL1Flags_l2cmd (v : Byte) : (s.setL1Flags v).l2cmd = s.l2cmd := rfl
@[simp] theorem setL1Flags_l2flags (v : Byte) : (s.setL1Flags v).l2flags = s.l2flags := rfl
@[simp] theorem setL1Flags_crcr (v : Byte) : (s.setL1Flags v).crcr = s.crcr := rfl

@[simp] theorem setL1Seq_params (v : Half) : (s.setL1Seq v).params = s.params := rfl
@[simp] theorem setL1Seq_inputs (v : Half) : (s.setL1Seq v).inputs = s.inputs := rfl
@[simp] theorem setL1Seq_ibuf (v : Half) : (s.setL1Seq v).ibuf = s.ibuf := rfl
@[simp] theorem setL1Seq_obuf (v : Half) : (s.setL1Seq v).obuf = s.obuf := rfl
@[simp] theorem setL1Seq_ftab (v : Half) : (s.setL1Seq v).ftab = s.ftab := rfl
@[simp] theorem setL1Seq_key (v : Half) : (s.setL1Seq v).key = s.key := rfl
@[simp] theorem setL1Seq_kvalid (v : Half) : (s.setL1Seq v).kvalid = s.kvalid := rfl
@[simp] theorem setL1Seq_err (v : Half) : (s.setL1Seq v).err = s.err := rfl
@[simp] theorem setL1Seq_isPartial (v : Half) : (s.setL1Seq v).isPartial = s.isPartial := rfl
@[simp] theorem setL1Seq_errlog (v : Half) : (s.setL1Seq v).errlog = s.errlog := rfl
@[simp] theorem setL1Seq_l1flags (v : Half) : (s.setL1Seq v).l1flags = s.l1flags := rfl
@[simp] theorem setL1Seq_l1seq (v : Half) : (s.setL1Seq v).l1seq = v := rfl
@[simp] theorem setL1Seq_l1len (v : Half) : (s.setL1Seq v).l1len = s.l1len := rfl
@[simp] theorem setL1Seq_l1crc (v : Half) : (s.setL1Seq v).l1crc = s.l1crc := rfl
@[simp] theorem setL1Seq_remain (v : Half) : (s.setL1Seq v).remain = s.remain := rfl
@[simp] theorem setL1Seq_xtra (v : Half) : (s.setL1Seq v).xtra = s.xtra := rfl
@[simp] theorem setL1Seq_l2cmd (v : Half) : (s.setL1Seq v).l2cmd = s.l2cmd := rfl
@[simp] theorem setL1Seq_l2flags (v : Half) : (s.setL1Seq v).l2flags = s.l2flags := rfl
@[simp] theorem setL1Seq_crcr (v : Half) : (s.setL1Seq v).crcr = s.crcr := rfl

@[simp] theorem setL1LenCrc_params (l c : Half) : (s.setL1LenCrc l c).params = s.params := rfl
@[simp] theorem setL1LenCrc_inputs (l c : Half) : (s.setL1LenCrc l c).inputs = s.inputs := rfl
@[simp] theorem setL1LenCrc_ibuf (l c : Half) : (s.setL1LenCrc l c).ibuf = s.ibuf := rfl
@[simp] theorem setL1LenCrc_obuf (l c : Half) : (s.setL1LenCrc l c).obuf = s.obuf := rfl
@[simp] theorem setL1LenCrc_ftab (l c : Half) : (s.setL1LenCrc l c).ftab = s.ftab := rfl
@[simp] theorem setL1LenCrc_key (l c : Half) : (s.setL1LenCrc l c).key = s.key := rfl
@[simp] theorem setL1LenCrc_kvalid (l c : Half) : (s.setL1LenCrc l c).kvalid = s.kvalid := rfl
@[simp] theorem setL1LenCrc_err (l c : Half) : (s.setL1LenCrc l c).err = s.err := rfl
@[simp] theorem setL1LenCrc_isPartial (l c : Half) : (s.setL1LenCrc l c).isPartial = s.isPartial := rfl
@[simp] theorem setL1LenCrc_errlog (l c : Half) : (s.setL1LenCrc l c).errlog = s.errlog := rfl
@[simp] theorem setL1LenCrc_l1flags (l c : Half) : (s.setL1LenCrc l c).l1flags = s.l1flags := rfl
@[simp] theorem setL1LenCrc_l1seq (l c : Half) : (s.setL1LenCrc l c).l1seq = s.l1seq := rfl
@[simp] theorem setL1LenCrc_l1len (l c : Half) : (s.setL1LenCrc l c).l1len = l := rfl
@[simp] theorem setL1LenCrc_l1crc (l c : Half) : (s.setL1LenCrc l c).l1crc = c := rfl
@[simp] theorem setL1LenCrc_remain (l c : Half) : (s.setL1LenCrc l c).remain = s.remain := rfl
@[simp] theorem setL1LenCrc_xtra (l c : Half) : (s.setL1LenCrc l c).xtra = s.xtra := rfl
@[simp] theorem setL1LenCrc_l2cmd (l c : Half) : (s.setL1LenCrc l c).l2cmd = s.l2cmd := rfl
@[simp] theorem setL1LenCrc_l2flags (l c : Half) : (s.setL1LenCrc l c).l2flags = s.l2flags := rfl
@[simp] theorem setL1LenCrc_crcr (l c : Half) : (s.setL1LenCrc l c).crcr = s.crcr := rfl

@[simp] theorem setL1Header_params (h : L1Header) : (s.setL1Header h).params = s.params := rfl
@[simp] theorem setL1Header_inputs (h : L1Header) : (s.setL1Header h).inputs = s.inputs := rfl
@[simp] theorem setL1Header_ibuf (h : L1Header) : (s.setL1Header h).ibuf = s.ibuf := rfl
@[simp] theorem setL1Header_obuf (h : L1Header) : (s.setL1Header h).obuf = s.obuf := rfl
@[simp] theorem setL1Header_ftab (h : L1Header) : (s.setL1Header h).ftab = s.ftab := rfl
@[simp] theorem setL1Header_key (h : L1Header) : (s.setL1Header h).key = s.key := rfl
@[simp] theorem setL1Header_kvalid (h : L1Header) : (s.setL1Header h).kvalid = s.kvalid := rfl
@[simp] theorem setL1Header_err (h : L1Header) : (s.setL1Header h).err = s.err := rfl
@[simp] theorem setL1Header_isPartial (h : L1Header) : (s.setL1Header h).isPartial = s.isPartial := rfl
@[simp] theorem setL1Header_errlog (h : L1Header) : (s.setL1Header h).errlog = s.errlog := rfl
@[simp] theorem setL1Header_l1flags (h : L1Header) : (s.setL1Header h).l1flags = h.flags := rfl
@[simp] theorem setL1Header_l1seq (h : L1Header) : (s.setL1Header h).l1seq = h.seq := rfl
@[simp] theorem setL1Header_l1len (h : L1Header) : (s.setL1Header h).l1len = h.length := rfl
@[simp] theorem setL1Header_l1crc (h : L1Header) : (s.setL1Header h).l1crc = h.crc := rfl
@[simp] theorem setL1Header_remain (h : L1Header) : (s.setL1Header h).remain = s.remain := rfl
@[simp] theorem setL1Header_xtra (h : L1Header) : (s.setL1Header h).xtra = s.xtra := rfl
@[simp] theorem setL1Header_l2cmd (h : L1Header) : (s.setL1Header h).l2cmd = s.l2cmd := rfl
@[simp] theorem setL1Header_l2flags (h : L1Header) : (s.setL1Header h).l2flags = s.l2flags := rfl
@[simp] theorem setL1Header_crcr (h : L1Header) : (s.setL1Header h).crcr = s.crcr := rfl

@[simp] theorem setProgress_params (r : Half) (x : Word) (p : Bool) : (s.setProgress r x p).params = s.params := rfl
@[simp] theorem setProgress_inputs (r : Half) (x : Word) (p : Bool) : (s.setProgress r x p).inputs = s.inputs := rfl
@[simp] theorem setProgress_ibuf (r : Half) (x : Word) (p : Bool) : (s.setProgress r x p).ibuf = s.ibuf := rfl
@[simp] theorem setProgress_obuf (r : Half) (x : Word) (p : Bool) : (s.setProgress r x p).obuf = s.obuf := rfl
@[simp] theorem setProgress_ftab (r : Half) (x : Word) (p : Bool) : (s.setProgress r x p).ftab = s.ftab := rfl
@[simp] theorem setProgress_key (r : Half) (x : Word) (p : Bool) : (s.setProgress r x p).key = s.key := rfl
@[simp] theorem setProgress_kvalid (r : Half) (x : Word) (p : Bool) : (s.setProgress r x p).kvalid = s.kvalid := rfl
@[simp] theorem setProgress_err (r : Half) (x : Word) (p : Bool) : (s.setProgress r x p).err = s.err := rfl
@[simp] theorem setProgress_isPartial (r : Half) (x : Word) (p : Bool) : (s.setProgress r x p).isPartial = p := rfl
@[simp] theorem setProgress_errlog (r : Half) (x : Word) (p : Bool) : (s.setProgress r x p).errlog = s.errlog := rfl
@[simp] theorem setProgress_l1flags (r : Half) (x : Word) (p : Bool) : (s.setProgress r x p).l1flags = s.l1flags := rfl
@[simp] theorem setProgress_l1seq (r : Half) (x : Word) (p : Bool) : (s.setProgress r x p).l1seq = s.l1seq := rfl
@[simp] theorem setProgress_l1len (r : Half) (x : Word) (p : Bool) : (s.setProgress r x p).l1len = s.l1len := rfl
@[simp] theorem setProgress_l1crc (r : Half) (x : Word) (p : Bool) : (s.setProgress r x p).l1crc = s.l1crc := rfl
@[simp] theorem setProgress_remain (r : Half) (x : Word) (p : Bool) : (s.setProgress r x p).remain = r := rfl
@[simp] theorem setProgress_xtra (r : Half) (x : Word) (p : Bool) : (s.setProgress r x p).xtra = x := rfl
@[simp] theorem setProgress_l2cmd (r : Half) (x : Word) (p : Bool) : (s.setProgress r x p).l2cmd = s.l2cmd := rfl
@[simp] theorem setProgress_l2flags (r : Half) (x : Word) (p : Bool) : (s.setProgress r x p).l2flags = s.l2flags := rfl
@[simp] theorem setProgress_crcr (r : Half) (x : Word) (p : Bool) : (s.setProgress r x p).crcr = s.crcr := rfl

@[simp] theorem setL2Cmd_params (v : Byte) : (s.setL2Cmd v).params = s.params := rfl
@[simp] theorem setL2Cmd_inputs (v : Byte) : (s.setL2Cmd v).inputs = s.inputs := rfl
@[simp] theorem setL2Cmd_ibuf (v : Byte) : (s.setL2Cmd v).ibuf = s.ibuf := rfl
@[simp] theorem setL2Cmd_obuf (v : Byte) : (s.setL2Cmd v).obuf = s.obuf := rfl
@[simp] theorem setL2Cmd_ftab (v : Byte) : (s.setL2Cmd v).ftab = s.ftab := rfl
@[simp] theorem setL2Cmd_key (v : Byte) : (s.setL2Cmd v).key = s.key := rfl
@[simp] theorem setL2Cmd_kvalid (v : Byte) : (s.setL2Cmd v).kvalid = s.kvalid := rfl
@[simp] theorem setL2Cmd_err (v : Byte) : (s.setL2Cmd v).err = s.err := rfl
@[simp] theorem setL2Cmd_isPartial (v : Byte) : (s.setL2Cmd v).isPartial = s.isPartial := rfl
@[simp] theorem setL2Cmd_errlog (v : Byte) : (s.setL2Cmd v).errlog = s.errlog := rfl
@[simp] theorem setL2Cmd_l1flags (v : Byte) : (s.setL2Cmd v).l1flags = s.l1flags := rfl
@[simp] theorem setL2Cmd_l1seq (v : Byte) : (s.setL2Cmd v).l1seq = s.l1seq := rfl
@[simp] theorem setL2Cmd_l1len (v : Byte) : (s.setL2Cmd v).l1len = s.l1len := rfl
@[simp] theorem setL2Cmd_l1crc (v : Byte) : (s.setL2Cmd v).l1crc = s.l1crc := rfl
@[simp] theorem setL2Cmd_remain (v : Byte) : (s.setL2Cmd v).remain = s.remain := rfl
@[simp] theorem setL2Cmd_xtra (v : Byte) : (s.setL2Cmd v).xtra = s.xtra := rfl
@[simp] theorem setL2Cmd_l2cmd (v : Byte) : (s.setL2Cmd v).l2cmd = v := rfl
@[simp] theorem setL2Cmd_l2flags (v : Byte) : (s.setL2Cmd v).l2flags = s.l2flags := rfl
@[simp] theorem setL2Cmd_crcr (v : Byte) : (s.setL2Cmd v).crcr = s.crcr := rfl

@[simp] theorem setL2Flags_params (v : Byte) : (s.setL2Flags v).params = s.params := rfl
@[simp] theorem setL2Flags_inputs (v : Byte) : (s.setL2Flags v).inputs = s.inputs := rfl
@[simp] theorem setL2Flags_ibuf (v : Byte) : (s.setL2Flags v).ibuf = s.ibuf := rfl
@[simp] theorem setL2Flags_obuf (v : Byte) : (s.setL2Flags v).obuf = s.obuf := rfl
@[simp] theorem setL2Flags_ftab (v : Byte) : (s.setL2Flags v).ftab = s.ftab := rfl
@[simp] theorem setL2Flags_key (v : Byte) : (s.setL2Flags v).key = s.key := rfl
@[simp] theorem setL2Flags_kvalid (v : Byte) : (s.setL2Flags v).kvalid = s.kvalid := rfl
@[simp] theorem setL2Flags_err (v : Byte) : (s.setL2Flags v).err = s.err := rfl
@[simp] theorem setL2Flags_isPartial (v : Byte) : (s.setL2Flags v).isPartial = s.isPartial := rfl
@[simp] theorem setL2Flags_errlog (v : Byte) : (s.setL2Flags v).errlog = s.errlog := rfl
@[simp] theorem setL2Flags_l1flags (v : Byte) : (s.setL2Flags v).l1flags = s.l1flags := rfl
@[simp] theorem setL2Flags_l1seq (v : Byte) : (s.setL2Flags v).l1seq = s.l1seq := rfl
@[simp] theorem setL2Flags_l1len (v : Byte) : (s.setL2Flags v).l1len = s.l1len := rfl
@[simp] theorem setL2Flags_l1crc (v : Byte) : (s.setL2Flags v).l1crc = s.l1crc := rfl
@[simp] theorem setL2Flags_remain (v : Byte) : (s.setL2Flags v).remain = s.remain := rfl
@[simp] theorem setL2Flags_xtra (v : Byte) : (s.setL2Flags v).xtra = s.xtra := rfl
@[simp] theorem setL2Flags_l2cmd (v : Byte) : (s.setL2Flags v).l2cmd = s.l2cmd := rfl
@[simp] theorem setL2Flags_l2flags (v : Byte) : (s.setL2Flags v).l2flags = v := rfl
@[simp] theorem setL2Flags_crcr (v : Byte) : (s.setL2Flags v).crcr = s.crcr := rfl

@[simp] theorem setCrcr_params (v : Half) : (s.setCrcr v).params = s.params := rfl
@[simp] theorem setCrcr_inputs (v : Half) : (s.setCrcr v).inputs = s.inputs := rfl
@[simp] theorem setCrcr_ibuf (v : Half) : (s.setCrcr v).ibuf = s.ibuf := rfl
@[simp] theorem setCrcr_obuf (v : Half) : (s.setCrcr v).obuf = s.obuf := rfl
@[simp] theorem setCrcr_ftab (v : Half) : (s.setCrcr v).ftab = s.ftab := rfl
@[simp] theorem setCrcr_key (v : Half) : (s.setCrcr v).key = s.key := rfl
@[simp] theorem setCrcr_kvalid (v : Half) : (s.setCrcr v).kvalid = s.kvalid := rfl
@[simp] theorem setCrcr_err (v : Half) : (s.setCrcr v).err = s.err := rfl
@[simp] theorem setCrcr_isPartial (v : Half) : (s.setCrcr v).isPartial = s.isPartial := rfl
@[simp] theorem setCrcr_errlog (v : Half) : (s.setCrcr v).errlog = s.errlog := rfl
@[simp] theorem setCrcr_l1flags (v : Half) : (s.setCrcr v).l1flags = s.l1flags := rfl
@[simp] theorem setCrcr_l1seq (v : Half) : (s.setCrcr v).l1seq = s.l1seq := rfl
@[simp] theorem setCrcr_l1len (v : Half) : (s.setCrcr v).l1len = s.l1len := rfl
@[simp] theorem setCrcr_l1crc (v : Half) : (s.setCrcr v).l1crc = s.l1crc := rfl
@[simp] theorem setCrcr_remain (v : Half) : (s.setCrcr v).remain = s.remain := rfl
@[simp] theorem setCrcr_xtra (v : Half) : (s.setCrcr v).xtra = s.xtra := rfl
@[simp] theorem setCrcr_l2cmd (v : Half) : (s.setCrcr v).l2cmd = s.l2cmd := rfl
@[simp] theorem setCrcr_l2flags (v : Half) : (s.setCrcr v).l2flags = s.l2flags := rfl
@[simp] theorem setCrcr_crcr (v : Half) : (s.setCrcr v).crcr = v := rfl

@[simp] theorem setInputs_params (v : List HostInput) : (s.setInputs v).params = s.params := rfl
@[simp] theorem setInputs_inputs (v : List HostInput) : (s.setInputs v).inputs = v := rfl
@[simp] theorem setInputs_ibuf (v : List HostInput) : (s.setInputs v).ibuf = s.ibuf := rfl
@[simp] theorem setInputs_obuf (v : List HostInput) : (s.setInputs v).obuf = s.obuf := rfl
@[simp] theorem setInputs_ftab (v : List HostInput) : (s.setInputs v).ftab = s.ftab := rfl
@[simp] theorem setInputs_key (v : List HostInput) : (s.setInputs v).key = s.key := rfl
@[simp] theorem setInputs_kvalid (v : List HostInput) : (s.setInputs v).kvalid = s.kvalid := rfl
@[simp] theorem setInputs_err (v : List HostInput) : (s.setInputs v).err = s.err := rfl
@[simp] theorem setInputs_isPartial (v : List HostInput) : (s.setInputs v).isPartial = s.isPartial := rfl
@[simp] theorem setInputs_errlog (v : List HostInput) : (s.setInputs v).errlog = s.errlog := rfl
@[simp] theorem setInputs_l1flags (v : List HostInput) : (s.setInputs v).l1flags = s.l1flags := rfl
@[simp] theorem setInputs_l1seq (v : List HostInput) : (s.setInputs v).l1seq = s.l1seq := rfl
@[simp] theorem setInputs_l1len (v : List HostInput) : (s.setInputs v).l1len = s.l1len := rfl
@[simp] theorem setInputs_l1crc (v : List HostInput) : (s.setInputs v).l1crc = s.l1crc := rfl
@[simp] theorem setInputs_remain (v : List HostInput) : (s.setInputs v).remain = s.remain := rfl
@[simp] theorem setInputs_xtra (v : List HostInput) : (s.setInputs v).xtra = s.xtra := rfl
@[simp] theorem setInputs_l2cmd (v : List HostInput) : (s.setInputs v).l2cmd = s.l2cmd := rfl
@[simp] theorem setInputs_l2flags (v : List HostInput) : (s.setInputs v).l2flags = s.l2flags := rfl
@[simp] theorem setInputs_crcr (v : List HostInput) : (s.setInputs v).crcr = s.crcr := rfl

@[simp] theorem complete_params : (s.complete).params = s.params := rfl
@[simp] theorem complete_inputs : (s.complete).inputs = s.inputs := rfl
@[simp] theorem complete_ibuf : (s.complete).ibuf = s.ibuf := rfl
@[simp] theorem complete_obuf : (s.complete).obuf = s.obuf := rfl
@[simp] theorem complete_ftab : (s.complete).ftab = s.ftab := rfl
@[simp] theorem complete_key : (s.complete).key = s.key := rfl
@[simp] theorem complete_kvalid : (s.complete).kvalid = s.kvalid := rfl
@[simp] theorem complete_err : (s.complete).err = none := rfl
@[simp] theorem complete_isPartial : (s.complete).isPartial = s.isPartial := rfl
@[simp] theorem complete_errlog : (s.complete).errlog = s.errlog := rfl
@[simp] theorem complete_l1flags : (s.complete).l1flags = s.l1flags := rfl
@[simp] theorem complete_l1seq : (s.complete).l1seq = s.l1seq := rfl
@[simp] theorem complete_l1len : (s.complete).l1len = s.l1len := rfl
@[simp] theorem complete_l1crc : (s.complete).l1crc = s.l1crc := rfl
@[simp] theorem complete_remain : (s.complete).remain = s.remain := rfl
@[simp] theorem complete_xtra : (s.complete).xtra = s.xtra := rfl
@[simp] theorem complete_l2cmd : (s.complete).l2cmd = s.l2cmd := rfl
@[simp] theorem complete_l2flags : (s.complete).l2flags = s.l2flags := rfl
@[simp] theorem complete_crcr : (s.complete).crcr = s.crcr := rfl

@[simp] theorem raiseError_params (e : Err) : (s.raiseError e).params = s.params := rfl
@[simp] theorem raiseError_inputs (e : Err) : (s.raiseError e).inputs = s.inputs := rfl
@[simp] theorem raiseError_ibuf (e : Err) : (s.raiseError e).ibuf = s.ibuf := rfl
@[simp] theorem raiseError_obuf (e : Err) : (s.raiseError e).obuf = s.obuf := rfl
@[simp] theorem raiseError_ftab (e : Err) : (s.raiseError e).ftab = s.ftab := rfl
@[simp] theorem raiseError_key (e : Err) : (s.raiseError e).key = s.key := rfl
@[simp] theorem raiseError_kvalid (e : Err) : (s.raiseError e).kvalid = s.kvalid := rfl
@[simp] theorem raiseError_err (e : Err) : (s.raiseError e).err = some e := rfl
@[simp] theorem raiseError_isPartial (e : Err) : (s.raiseError e).isPartial = s.isPartial := rfl
@[simp] theorem raiseError_errlog (e : Err) : (s.raiseError e).errlog = logError s.errlog e := rfl
@[simp] theorem raiseError_l1flags (e : Err) : (s.raiseError e).l1flags = s.l1flags := rfl
@[simp] theorem raiseError_l1seq (e : Err) : (s.raiseError e).l1seq = s.l1seq := rfl
@[simp] theorem raiseError_l1len (e : Err) : (s.raiseError e).l1len = s.l1len := rfl
@[simp] theorem raiseError_l1crc (e : Err) : (s.raiseError e).l1crc = s.l1crc := rfl
@[simp] theorem raiseError_remain (e : Err) : (s.raiseError e).remain = s.remain := rfl
@[simp] theorem raiseError_xtra (e : Err) : (s.raiseError e).xtra = s.xtra := rfl
@[simp] theorem raiseError_l2cmd (e : Err) : (s.raiseError e).l2cmd = s.l2cmd := rfl
@[simp] theorem raiseError_l2flags (e : Err) : (s.raiseError e).l2flags = s.l2flags := rfl
@[simp] theorem raiseError_crcr (e : Err) : (s.raiseError e).crcr = s.crcr := rfl

/-! The reset state, field by field (R59). -/

@[simp] theorem resetWith_params (p : Params) : (State.resetWith p).params = p := rfl
@[simp] theorem resetWith_inputs (p : Params) : (State.resetWith p).inputs = [] := rfl
@[simp] theorem resetWith_ibuf (p : Params) : (State.resetWith p).ibuf = [] := rfl
@[simp] theorem resetWith_obuf (p : Params) : (State.resetWith p).obuf = [] := rfl
@[simp] theorem resetWith_ftab (p : Params) : (State.resetWith p).ftab = [] := rfl
@[simp] theorem resetWith_key (p : Params) : (State.resetWith p).key = Vector.replicate 16 0 := rfl
@[simp] theorem resetWith_kvalid (p : Params) : (State.resetWith p).kvalid = 0 := rfl
@[simp] theorem resetWith_err (p : Params) : (State.resetWith p).err = none := rfl
@[simp] theorem resetWith_isPartial (p : Params) : (State.resetWith p).isPartial = false := rfl
@[simp] theorem resetWith_errlog (p : Params) : (State.resetWith p).errlog = 0 := rfl
@[simp] theorem resetWith_l1flags (p : Params) : (State.resetWith p).l1flags = 0 := rfl
@[simp] theorem resetWith_l1seq (p : Params) : (State.resetWith p).l1seq = 0 := rfl
@[simp] theorem resetWith_l1len (p : Params) : (State.resetWith p).l1len = 0 := rfl
@[simp] theorem resetWith_l1crc (p : Params) : (State.resetWith p).l1crc = 0 := rfl
@[simp] theorem resetWith_remain (p : Params) : (State.resetWith p).remain = 0 := rfl
@[simp] theorem resetWith_xtra (p : Params) : (State.resetWith p).xtra = 0 := rfl
@[simp] theorem resetWith_l2cmd (p : Params) : (State.resetWith p).l2cmd = 0 := rfl
@[simp] theorem resetWith_l2flags (p : Params) : (State.resetWith p).l2flags = 0 := rfl
@[simp] theorem resetWith_crcr (p : Params) : (State.resetWith p).crcr = 0 := rfl

/-- Two states with equal fields are equal (R30). -/
theorem State.ext_fields {s t : State} (h0 : s.params = t.params) (h1 : s.inputs = t.inputs) (h2 : s.ibuf = t.ibuf) (h3 : s.obuf = t.obuf) (h4 : s.ftab = t.ftab) (h5 : s.key = t.key)
    (h6 : s.kvalid = t.kvalid) (h7 : s.err = t.err) (h8 : s.isPartial = t.isPartial) (h9 : s.errlog = t.errlog) (h10 : s.l1flags = t.l1flags)
    (h11 : s.l1seq = t.l1seq) (h12 : s.l1len = t.l1len) (h13 : s.l1crc = t.l1crc) (h14 : s.remain = t.remain) (h15 : s.xtra = t.xtra)
    (h16 : s.l2cmd = t.l2cmd) (h17 : s.l2flags = t.l2flags) (h18 : s.crcr = t.crcr) : s = t := by
  cases s
  cases t
  simp_all

end Sys2Proof.Machine
end

