-- ==== Sys2Proof/Laws/Ops.lean ====
section
/-! SUPPORT. What the shared operations can do: concluding a command, raising, the capacities, the log. -/

namespace Sys2Proof.Machine

variable {s s' t : State} {e e' : Err} {c : Bool} {r : Except Err State}

@[simp] theorem conclude_ok : conclude s (.ok s') = .next s'.complete := rfl

@[simp] theorem conclude_error : conclude s (.error e) = .next (s.raiseError e) := rfl

/-- A command goes on whatever its checks say (R313). -/
theorem conclude_goes_on (s : State) (r : Except Err State) : ∃ t, conclude s r = .next t := by
  cases r with
  | ok s' => exact ⟨_, rfl⟩
  | error e => exact ⟨_, rfl⟩

/-- A concluded command has completed (R310) or raised (R311). -/
theorem conclude_eq_next : conclude s r = .next t ↔
    (∃ s', r = .ok s' ∧ t = s'.complete) ∨ ∃ e, r = .error e ∧ t = s.raiseError e := by
  cases r <;> simp [eq_comm]

@[simp] theorem raiseIf_true : raiseIf true e r = .error e := rfl

@[simp] theorem raiseIf_false : raiseIf false e r = r := rfl

theorem raiseIf_eq_ok : raiseIf c e r = .ok s' ↔ c = false ∧ r = .ok s' := by cases c <;> simp

theorem raiseIf_eq_error : raiseIf c e r = .error e' ↔ (c = true ∧ e = e') ∨ (c = false ∧ r = .error e') := by
  cases c <;> simp

/-- A size that does not exceed a capacity fits it. -/
@[simp] theorem exceeds_eq_false {c : Cap} {n : Nat} : c.exceeds n = false ↔ Fits c n := by
  cases c <;> simp [Cap.exceeds, Fits]

@[simp] theorem exceeds_eq_true {c : Cap} {n : Nat} : c.exceeds n = true ↔ ¬ Fits c n := by
  cases c <;> simp [Cap.exceeds, Fits]

theorem Fits.mono {c : Cap} {m n : Nat} (h : Fits c n) (hm : m ≤ n) : Fits c m := by
  cases c with
  | bounded k => exact Nat.le_trans hm h
  | unbounded => trivial

/-- Codes are 1 to 10 (R300). -/
theorem Err.code_bounds (e : Err) : 1 ≤ e.code ∧ e.code ≤ 10 := by cases e <;> decide

theorem Err.code_inj : e.code = e'.code ↔ e = e' := by cases e <;> cases e' <;> decide

/-- The ERR field tells the errors apart, and from completion (R53). -/
@[simp] theorem errField_eq_code {o : Option Err} : errField o = BitVec.ofNat 4 e.code ↔ o = some e := by
  cases o with
  | none => cases e <;> decide
  | some x => cases x <;> cases e <;> decide

theorem errField_inj {o o' : Option Err} (h : errField o = errField o') : o = o' := by
  cases o' with
  | some e => exact errField_eq_code.mp h
  | none =>
    cases o with
    | none => rfl
    | some e => exact absurd (errField_eq_code.mp h.symm) (by simp)

/-- Bit `k` of ERRLOG, in terms of the stored bits (R57). -/
theorem errlogWord_getLsbD (s : State) (k : Nat) :
    s.errlogWord.getLsbD k = (decide (1 ≤ k) && s.errlog.getLsbD (k - 1)) := by
  unfold State.errlogWord
  rw [BitVec.getLsbD_append, BitVec.getLsbD_append]
  rcases Nat.lt_or_ge k 1 with h | h
  · simp [show k = 0 by omega]
  · by_cases h2 : k < 11
    · simp [show ¬ k < 1 by omega, h, show k - 1 < 10 by omega]
    · simp [show ¬ k < 1 by omega, show ¬ k - 1 < 10 by omega, BitVec.getLsbD_of_ge s.errlog (k - 1) (by omega)]

theorem logError_getLsbD (l : BitVec 10) (e : Err) (j : Nat) :
    (logError l e).getLsbD j = (l.getLsbD j || decide (j = e.code - 1)) := by
  have hb := e.code_bounds
  simp only [logError, BitVec.getLsbD_or, BitVec.getLsbD_shiftLeft]
  congr 1
  by_cases hj : j = e.code - 1
  · subst hj
    simp [show e.code - 1 < 10 by omega]
  · rcases Nat.lt_or_ge j (e.code - 1) with h | h
    · simp [h, hj]
    · simp [show ¬ j < e.code - 1 by omega, hj, show j - (e.code - 1) ≠ 0 by omega]

/-- Raising sets the bit of the code in ERRLOG and no other (R311). -/
theorem errlogWord_raiseError (s : State) (e : Err) :
    (s.raiseError e).errlogWord = s.errlogWord ||| (1#16 <<< e.code) := by
  have hb := e.code_bounds
  ext k hk
  simp only [← BitVec.getLsbD_eq_getElem, BitVec.getLsbD_or, errlogWord_getLsbD, raiseError_errlog, logError_getLsbD,
    BitVec.getLsbD_shiftLeft]
  by_cases h : k = e.code
  · subst h
    simp [hk, hb.1]
  · rcases Nat.lt_or_ge k e.code with h1 | h1
    · simp only [h1, decide_true, Bool.not_true, Bool.and_false]
      by_cases h0 : 1 ≤ k
      · simp [show k - 1 ≠ e.code - 1 by omega]
      · simp [h0]
    · simp [show ¬ k < e.code by omega, show k - 1 ≠ e.code - 1 by omega, show k - e.code ≠ 0 by omega]

/-- Raising records the error and nothing else (R311). -/
theorem raiseError_onlyErrorRecorded (s : State) (e : Err) : OnlyErrorRecorded s (s.raiseError e) e :=
  ⟨errField_eq_code.mpr rfl, errlogWord_raiseError s e, by constructor <;> rfl⟩

/-- ERRLOG determines its stored bits. -/
theorem errlogWord_inj (h : s.errlogWord = t.errlogWord) : s.errlog = t.errlog := by
  ext k hk
  have := congrArg (fun w : BitVec 16 => w.getLsbD (k + 1)) h
  simpa [errlogWord_getLsbD, BitVec.getLsbD_eq_getElem hk] using this

/-- A state in which only `e` is recorded is the state raising `e` gives. -/
theorem OnlyErrorRecorded.eq (h : OnlyErrorRecorded s t e) : t = s.raiseError e := by
  obtain ⟨h1, h2, h3⟩ := h
  rw [← errlogWord_raiseError] at h2
  exact State.ext_fields h3.params h3.inputs h3.ibuf h3.obuf h3.ftab h3.key h3.kvalid (errField_eq_code.mp h1)
    h3.isPartial (errlogWord_inj h2) h3.l1flags h3.l1seq h3.l1len h3.l1crc h3.remain h3.xtra h3.l2cmd h3.l2flags h3.crcr

/-- A command raises `e` exactly when it concludes so. -/
theorem raises_iff {i : Instr} : Raises i s e ↔ exec i s = .next (s.raiseError e) := by
  constructor
  · rintro ⟨t, h, ht⟩
    rw [h, ht.eq]
  · intro h
    exact ⟨_, h, raiseError_onlyErrorRecorded s e⟩

@[simp] theorem keyReady_iff : s.keyReady = true ↔ s.kvalid = 0xFFFF := by simp [State.keyReady]

/-- The reset state keeps the bounds of the stores, whatever the parameters. -/
theorem resetWith_wf (p : Params) : (State.resetWith p).wf = true := by
  simp only [State.wf, Memory.wf, resetWith_ibuf, resetWith_obuf, resetWith_ftab, resetWith_params]
  cases p.ibufCap <;> cases p.obufCap <;> cases p.ftabCap <;> cases p.fvalCap <;> simp [Cap.exceeds, valueBytes]

end Sys2Proof.Machine
end

