-- ==== Sys2Proof/Laws/Aes.lean ====
section
/-! SUPPORT. The layers of AES and their inverses (44_aes_ecb.md R265 to R270), and blocks of ECB (R261). -/

namespace Sys2Proof.Machine

/-! ## GF(2^8) -/

theorem xtime_xor (a b : Byte) : xtime (a ^^^ b) = xtime a ^^^ xtime b := by
  unfold xtime
  rw [BitVec.getLsbD_xor, BitVec.shiftLeft_xor_distrib]
  cases a.getLsbD 7 <;> cases b.getLsbD 7 <;> simp
  · ac_rfl
  · ac_rfl
  · rw [show (a <<< 1 ^^^ 27#8) ^^^ (b <<< 1 ^^^ 27#8) = a <<< 1 ^^^ b <<< 1 ^^^ (27#8 ^^^ 27#8) by ac_rfl]
    simp

/-- A product with a bit vector's shifts, unrolled: `gmul c a` is a sum of iterated `xtime c`. -/
theorem gmulLoop_xor (n : Nat) (p q a b c : Byte) :
    gmulLoop n (p ^^^ q) c (a ^^^ b) = gmulLoop n p c a ^^^ gmulLoop n q c b := by
  induction n generalizing p q a b c with
  | zero => rfl
  | succ n ih =>
    simp only [gmulLoop]
    rw [BitVec.getLsbD_xor, BitVec.ushiftRight_xor_distrib, ← ih]
    congr 1
    cases a.getLsbD 0 <;> cases b.getLsbD 0 <;> simp
    · ac_rfl
    · ac_rfl
    · rw [show (p ^^^ c) ^^^ (q ^^^ c) = p ^^^ q ^^^ (c ^^^ c) by ac_rfl]
      simp

/-- The product distributes over XOR in its second operand (R263). -/
theorem gmul_xor (c a b : Byte) : gmul c (a ^^^ b) = gmul c a ^^^ gmul c b := by
  simpa [gmul] using gmulLoop_xor 8 0 0 a b c

/-! ## Columns -/

theorem AesCol.xor_comm (a b : AesCol) : a.xor b = b.xor a := by simp [AesCol.xor, BitVec.xor_comm]

theorem AesCol.xor_self_right (a b : AesCol) : (a.xor b).xor b = a := by simp [AesCol.xor]

theorem mixColumn_xor (a b : AesCol) : mixColumn (a.xor b) = (mixColumn a).xor (mixColumn b) := by
  simp only [mixColumn, AesCol.xor, gmul_xor, AesCol.mk.injEq]
  refine ⟨?_, ?_, ?_, ?_⟩ <;> ac_rfl

theorem invMixColumn_xor (a b : AesCol) : invMixColumn (a.xor b) = (invMixColumn a).xor (invMixColumn b) := by
  simp only [invMixColumn, AesCol.xor, gmul_xor, AesCol.mk.injEq]
  refine ⟨?_, ?_, ?_, ?_⟩ <;> ac_rfl

/-- A column turned by one place. -/
def AesCol.turn (a : AesCol) : AesCol := ⟨a.b3, a.b0, a.b1, a.b2⟩

theorem mixColumn_turn (a : AesCol) : mixColumn a.turn = (mixColumn a).turn := by
  simp only [mixColumn, AesCol.turn, AesCol.mk.injEq]
  refine ⟨?_, ?_, ?_, ?_⟩ <;> ac_rfl

theorem invMixColumn_turn (a : AesCol) : invMixColumn a.turn = (invMixColumn a).turn := by
  simp only [invMixColumn, AesCol.turn, AesCol.mk.injEq]
  refine ⟨?_, ?_, ?_, ?_⟩ <;> ac_rfl

/-- A column is the sum of four columns with one byte each, each the first place turned. -/
theorem AesCol.split (a : AesCol) : a = ((AesCol.mk a.b0 0 0 0).xor (AesCol.mk a.b1 0 0 0).turn).xor
    ((AesCol.mk a.b2 0 0 0).turn.turn.xor (AesCol.mk a.b3 0 0 0).turn.turn.turn) := by
  simp [AesCol.xor, AesCol.turn]

/-- Two functions that respect XOR and turning cancel when they do so on columns with one byte. -/
theorem cancel_of_single {f g : AesCol → AesCol} (hf : ∀ a b, f (a.xor b) = (f a).xor (f b))
    (hg : ∀ a b, g (a.xor b) = (g a).xor (g b)) (tf : ∀ a, f a.turn = (f a).turn) (tg : ∀ a, g a.turn = (g a).turn)
    (h : ∀ a : Byte, f (g ⟨a, 0, 0, 0⟩) = ⟨a, 0, 0, 0⟩) (x : AesCol) : f (g x) = x := by
  conv_lhs => rw [x.split]
  simp only [hg, hf, tg, tf, h]
  exact x.split.symm

/-- A byte is the sum of its bits. -/
theorem byte_eq_bits (a : Byte) : a =
    ((if a.getLsbD 0 then 1#8 else 0) ^^^ (if a.getLsbD 1 then 2#8 else 0)) ^^^
    ((if a.getLsbD 2 then 4#8 else 0) ^^^ (if a.getLsbD 3 then 8#8 else 0)) ^^^
    ((if a.getLsbD 4 then 16#8 else 0) ^^^ (if a.getLsbD 5 then 32#8 else 0)) ^^^
    ((if a.getLsbD 6 then 64#8 else 0) ^^^ (if a.getLsbD 7 then 128#8 else 0)) := by
  revert a
  decide +kernel

/-- Two functions of a byte that respect XOR are equal when they agree on the eight bits. -/
theorem additive_ext {f g : Byte → AesCol} (hf : ∀ a b, f (a ^^^ b) = (f a).xor (f b))
    (hg : ∀ a b, g (a ^^^ b) = (g a).xor (g b)) (h : ∀ a ∈ [0#8, 1, 2, 4, 8, 16, 32, 64, 128], f a = g a) (a : Byte) :
    f a = g a := by
  have hbit (c : Bool) (b : Byte) (hb : b ∈ [0#8, 1, 2, 4, 8, 16, 32, 64, 128]) :
      f (if c then b else 0) = g (if c then b else 0) := by
    cases c
    · exact h 0 (by simp)
    · exact h b hb
  rw [byte_eq_bits a]
  simp only [hf, hg]
  rw [hbit _ 1#8 (by simp), hbit _ 2#8 (by simp), hbit _ 4#8 (by simp), hbit _ 8#8 (by simp), hbit _ 16#8 (by simp),
    hbit _ 32#8 (by simp), hbit _ 64#8 (by simp), hbit _ 128#8 (by simp)]

/-- A column with one byte respects XOR. -/
theorem single_xor (a b : Byte) : AesCol.mk (a ^^^ b) 0 0 0 = (AesCol.mk a 0 0 0).xor ⟨b, 0, 0, 0⟩ := by
  simp [AesCol.xor]

/-- `InvMixColumns` undoes `MixColumns` (R269). -/
@[simp] theorem invMixColumn_mixColumn (a : AesCol) : invMixColumn (mixColumn a) = a :=
  cancel_of_single invMixColumn_xor mixColumn_xor invMixColumn_turn mixColumn_turn
    (additive_ext (fun a b => by rw [single_xor, mixColumn_xor, invMixColumn_xor]) single_xor (by decide +kernel)) a

/-- `MixColumns` undoes `InvMixColumns` (R269). -/
@[simp] theorem mixColumn_invMixColumn (a : AesCol) : mixColumn (invMixColumn a) = a :=
  cancel_of_single mixColumn_xor invMixColumn_xor mixColumn_turn invMixColumn_turn
    (additive_ext (fun a b => by rw [single_xor, invMixColumn_xor, mixColumn_xor]) single_xor (by decide +kernel)) a

/-! ## Layers -/

/-- `INV_SBOX` undoes `SBOX` (R265). -/
@[simp] theorem invSbox_sbox (a : Byte) : invSbox (sbox a) = a := by
  revert a
  decide +kernel

@[simp] theorem sbox_invSbox (a : Byte) : sbox (invSbox a) = a := by
  revert a
  decide +kernel

@[simp] theorem invSubBytes_subBytes (s : AesBlock) : invSubBytes (subBytes s) = s := by
  simp [invSubBytes, subBytes, AesBlock.mapCols, AesCol.mapBytes]

@[simp] theorem subBytes_invSubBytes (s : AesBlock) : subBytes (invSubBytes s) = s := by
  simp [invSubBytes, subBytes, AesBlock.mapCols, AesCol.mapBytes]

@[simp] theorem invShiftRows_shiftRows (s : AesBlock) : invShiftRows (shiftRows s) = s := rfl

@[simp] theorem shiftRows_invShiftRows (s : AesBlock) : shiftRows (invShiftRows s) = s := rfl

@[simp] theorem invMixColumns_mixColumns (s : AesBlock) : invMixColumns (mixColumns s) = s := by
  simp [invMixColumns, mixColumns, AesBlock.mapCols]

@[simp] theorem mixColumns_invMixColumns (s : AesBlock) : mixColumns (invMixColumns s) = s := by
  simp [invMixColumns, mixColumns, AesBlock.mapCols]

/-- `AddRoundKey` with the same round key undoes itself (R270). -/
@[simp] theorem addRoundKey_addRoundKey (s k : AesBlock) : addRoundKey (addRoundKey s k) k = s := by
  simp [addRoundKey, AesCol.xor_self_right]

/-! ## Blocks -/

@[simp] theorem toBytes_length (x : AesBlock) : x.toBytes.length = 16 := rfl

@[simp] theorem ecb_nil (f : AesBlock → AesBlock) : ecb f [] = [] := rfl

/-- ECB takes a whole block first (R261). -/
@[simp] theorem ecb_block (f : AesBlock → AesBlock) (x : AesBlock) (rest : List Byte) :
    ecb f (x.toBytes ++ rest) = (f x).toBytes ++ ecb f rest := rfl

/-- Sixteen bytes or more start with a block. -/
theorem eq_block_append {d : List Byte} (h : 16 ≤ d.length) : ∃ x rest, d = AesBlock.toBytes x ++ rest := by
  match d with
  | d0 :: d1 :: d2 :: d3 :: d4 :: d5 :: d6 :: d7 :: d8 :: d9 :: d10 :: d11 :: d12 :: d13 :: d14 :: d15 :: rest =>
    exact ⟨⟨⟨d0, d1, d2, d3⟩, ⟨d4, d5, d6, d7⟩, ⟨d8, d9, d10, d11⟩, ⟨d12, d13, d14, d15⟩⟩, rest, rfl⟩
  | [] | [_] | [_, _] | [_, _, _] | [_, _, _, _] | [_, _, _, _, _] | [_, _, _, _, _, _] | [_, _, _, _, _, _, _]
  | [_, _, _, _, _, _, _, _] | [_, _, _, _, _, _, _, _, _] | [_, _, _, _, _, _, _, _, _, _]
  | [_, _, _, _, _, _, _, _, _, _, _] | [_, _, _, _, _, _, _, _, _, _, _, _] | [_, _, _, _, _, _, _, _, _, _, _, _, _]
  | [_, _, _, _, _, _, _, _, _, _, _, _, _, _] | [_, _, _, _, _, _, _, _, _, _, _, _, _, _, _] =>
    simp only [List.length_cons, List.length_nil] at h
    omega

/-- Data of whole blocks, block by block (R261). -/
theorem blocks_induction {P : List Byte → Prop} (nil : P [])
    (block : ∀ x rest, P rest → P (AesBlock.toBytes x ++ rest)) (d : List Byte) (h : d.length % 16 = 0) : P d := by
  induction hn : d.length using Nat.strong_induction_on generalizing d with
  | _ n ih =>
    subst hn
    rcases Nat.lt_or_ge d.length 16 with hl | hl
    · rw [List.eq_nil_of_length_eq_zero (l := d) (by omega)]
      exact nil
    · obtain ⟨x, rest, rfl⟩ := eq_block_append hl
      rw [List.length_append, toBytes_length] at h hl ih
      exact block x rest (ih rest.length (by omega) rest (by omega) rfl)

/-- ECB gives as many bytes as it takes, on whole blocks (R261). -/
theorem ecb_length (f : AesBlock → AesBlock) (d : List Byte) (h : d.length % 16 = 0) : (ecb f d).length = d.length :=
  blocks_induction (P := fun d => (ecb f d).length = d.length) rfl
    (fun x rest ih => by rw [ecb_block, List.length_append, List.length_append, ih, toBytes_length, toBytes_length]) d h

/-- One-block functions that cancel do so over ECB, on whole blocks (R261). -/
theorem ecb_ecb {f g : AesBlock → AesBlock} (hfg : ∀ x, f (g x) = x) (d : List Byte) (h : d.length % 16 = 0) :
    ecb f (ecb g d) = d :=
  blocks_induction (P := fun d => ecb f (ecb g d) = d) rfl
    (fun x rest ih => by rw [ecb_block, ecb_block, hfg, ih]) d h

end Sys2Proof.Machine
end

