-- ==== Sys2Proof/Laws/Codec.lean ====
section
/-! SUPPORT. The 16-bit fields (00_scope.md R24, 20_memory.md R73), the frame (42_l1_frame.md R201, R202) and the
message (43_l2_tlv.md R231, R232): what the pure functions give, for every input. -/

namespace Sys2Proof.Machine

theorem le16_getLsbD (b0 b1 : Byte) (i : Nat) :
    (le16 b0 b1).getLsbD i = if i < 8 then b0.getLsbD i else b1.getLsbD (i - 8) := by
  unfold le16
  rw [BitVec.getLsbD_append]

@[simp] theorem le16_lo8_hi8 (v : Half) : le16 (lo8 v) (hi8 v) = v := by
  ext i hi
  rw [← BitVec.getLsbD_eq_getElem hi, le16_getLsbD]
  by_cases h : i < 8
  · simp [h, lo8, BitVec.getLsbD_eq_getElem hi]
  · simp [h, hi8, show i - 8 < 8 by omega, show 8 + (i - 8) = i by omega, BitVec.getLsbD_eq_getElem hi]

@[simp] theorem lo8_le16 (b0 b1 : Byte) : lo8 (le16 b0 b1) = b0 := by
  ext i hi
  simp [lo8, le16_getLsbD, hi]

@[simp] theorem hi8_le16 (b0 b1 : Byte) : hi8 (le16 b0 b1) = b1 := by
  ext i hi
  simp [hi8, le16_getLsbD, BitVec.getLsbD_eq_getElem hi]

/-- `le16(b0, b1) = b0 + 256 * b1` (R24). -/
theorem le16_toNat (b0 b1 : Byte) : (le16 b0 b1).toNat = b0.toNat + 256 * b1.toNat := by
  have h0 := b0.isLt
  rw [le16, BitVec.toNat_append, Nat.shiftLeft_eq, Nat.mul_comm, ← Nat.two_pow_add_eq_or_of_lt h0]
  omega

/-- A count below 65536 keeps its value in a 16-bit register. -/
theorem half_toNat {n : Nat} (h : n ≤ 65535) : (half n).toNat = n := by
  simp only [half, BitVec.toNat_ofNat]
  omega

/-- A count below 2^32 keeps its value in a 32-bit register (R33, R36, R51). -/
theorem word32_toNat {n : Nat} (h : n < 2 ^ 32) : (word32 n).toNat = n := by
  rw [word32, if_pos h, BitVec.toNat_ofNat, Nat.mod_eq_of_lt h]

/-- The two bytes of a 16-bit field are those of its number (R24, R73). -/
theorem le16Bytes_eq (v : Half) : le16Bytes v = u16Bytes v.toNat := by
  simp only [le16Bytes, u16Bytes, lo8, hi8, List.cons.injEq, and_true]
  constructor
  · apply BitVec.eq_of_toNat_eq
    simp
  · apply BitVec.eq_of_toNat_eq
    simp [Nat.shiftRight_eq_div_pow]

/-- A frame, byte by byte (R120). -/
theorem packL1_eq (T : CrcTable) (flags : Byte) (seq : Half) (d : List Byte) : packL1 T flags seq d =
    startByte :: flags :: lo8 (half d.length) :: hi8 (half d.length) :: lo8 (crc16 T d) :: hi8 (crc16 T d) ::
      lo8 seq :: hi8 seq :: d := by
  simp [packL1, le16Bytes]

@[simp] theorem packL1_length (T : CrcTable) (flags : Byte) (seq : Half) (d : List Byte) :
    (packL1 T flags seq d).length = 8 + d.length := by
  simp only [packL1_eq, List.length_cons]
  omega

/-- A frame with a whole header is parsed by its payload (R202, R211). -/
theorem parseL1_cons8 (T : CrcTable) (d1 d2 d3 d4 d5 d6 d7 : Byte) (body : List Byte) :
    parseL1 T (startByte :: d1 :: d2 :: d3 :: d4 :: d5 :: d6 :: d7 :: body) =
      parsePayload T { flags := d1, length := le16 d2 d3, crc := le16 d4 d5, seq := le16 d6 d7 } body := by
  simp [parseL1]

/-- A first byte that is not the start byte (R211). -/
theorem parseL1_framing {T : CrcTable} {d0 : Byte} {d : List Byte} (h : d0 ≠ startByte) :
    parseL1 T (d0 :: d) = .framing := by
  simp [parseL1, h]

/-- Fewer than 8 bytes, with no wrong start byte among them, lack a header (R202). -/
theorem parseL1_short (T : CrcTable) {d : List Byte} (hlen : d.length < 8) (h0 : ∀ b ∈ d.head?, b = startByte) :
    parseL1 T d = .shortHeader (8 - d.length) := by
  match d with
  | [] => rfl
  | [d0] | [d0, _] | [d0, _, _] | [d0, _, _, _] | [d0, _, _, _, _] | [d0, _, _, _, _, _]
  | [d0, _, _, _, _, _, _] =>
    have := h0 d0 rfl
    subst this
    simp [parseL1]
  | _ :: _ :: _ :: _ :: _ :: _ :: _ :: _ :: _ =>
    simp only [List.length_cons] at hlen
    omega

/-- The forms an input of `parse_l1` can have: wrong start byte, short header, whole header. -/
theorem frame_forms (d : List Byte) :
    (∃ d0 tail, d = d0 :: tail ∧ d0 ≠ startByte) ∨
    (d.length < 8 ∧ ∀ b ∈ d.head?, b = startByte) ∨
    ∃ d1 d2 d3 d4 d5 d6 d7 body, d = startByte :: d1 :: d2 :: d3 :: d4 :: d5 :: d6 :: d7 :: body := by
  match d with
  | [] => exact .inr (.inl ⟨by simp, by simp⟩)
  | d0 :: tail =>
    by_cases h : d0 = startByte
    · subst h
      match tail with
      | d1 :: d2 :: d3 :: d4 :: d5 :: d6 :: d7 :: body => exact .inr (.inr ⟨d1, d2, d3, d4, d5, d6, d7, body, rfl⟩)
      | [] | [_] | [_, _] | [_, _, _] | [_, _, _, _] | [_, _, _, _, _] | [_, _, _, _, _, _] =>
        exact .inr (.inl ⟨by simp, by simp⟩)
    · exact .inl ⟨d0, tail, rfl, h⟩

/-- A partial frame with a whole header lacks 1 to 65535 bytes (R202). -/
theorem parseL1_shortPayload {T : CrcTable} {d c : List Byte} {h : L1Header} {n : Nat}
    (hp : parseL1 T d = .shortPayload c h n) : 1 ≤ n ∧ n ≤ 65535 ∧ n = h.length.toNat - c.length ∧
      c.length < h.length.toNat ∧ c.length + 8 = d.length := by
  rcases frame_forms d with ⟨d0, tail, rfl, h0⟩ | ⟨hl, h0⟩ | ⟨d1, d2, d3, d4, d5, d6, d7, body, rfl⟩
  · rw [parseL1_framing h0] at hp
    cases hp
  · rw [parseL1_short T hl h0] at hp
    cases hp
  · rw [parseL1_cons8, parsePayload] at hp
    split at hp
    · cases hp
      have := (le16 d2 d3).isLt
      refine ⟨?_, ?_, rfl, ?_, ?_⟩ <;> simp only [List.length_cons] at * <;> omega
    · split at hp <;> cases hp

/-- A short header lacks 1 to 8 bytes (R202). -/
theorem parseL1_shortHeader {T : CrcTable} {d : List Byte} {n : Nat} (hp : parseL1 T d = .shortHeader n) :
    1 ≤ n ∧ n ≤ 8 ∧ n + d.length = 8 := by
  rcases frame_forms d with ⟨d0, tail, rfl, h0⟩ | ⟨hl, h0⟩ | ⟨d1, d2, d3, d4, d5, d6, d7, body, rfl⟩
  · rw [parseL1_framing h0] at hp
    cases hp
  · rw [parseL1_short T hl h0] at hp
    cases hp
    omega
  · rw [parseL1_cons8, parsePayload] at hp
    split at hp <;> [cases hp; (split at hp <;> cases hp)]

/-- A complete frame delivers exactly the declared bytes, and counts the rest (R202). -/
theorem parseL1_complete {T : CrcTable} {d c : List Byte} {h : L1Header} {n : Nat}
    (hp : parseL1 T d = .complete c h n) : c.length = h.length.toNat ∧ crc16 T c = h.crc ∧
      8 + c.length + n = d.length := by
  rcases frame_forms d with ⟨d0, tail, rfl, h0⟩ | ⟨hl, h0⟩ | ⟨d1, d2, d3, d4, d5, d6, d7, body, rfl⟩
  · rw [parseL1_framing h0] at hp
    cases hp
  · rw [parseL1_short T hl h0] at hp
    cases hp
  · rw [parseL1_cons8, parsePayload] at hp
    split at hp
    · cases hp
    · split at hp
      · cases hp
        refine ⟨?_, ‹_›, ?_⟩ <;> simp only [List.length_take, List.length_cons] at * <;> omega
      · cases hp

@[simp] theorem packRecord_length (r : Record) : (packRecord r).length = 3 + r.value.length := by
  simp only [packRecord, le16Bytes, List.cons_append, List.nil_append, List.length_cons]
  omega

/-- The length L2PACK checks is the length of what it writes (R235). -/
theorem packL2_length (cmd flags : Byte) (recs : List Record) :
    (packL2 cmd flags recs).length = packedLength recs := by
  simp only [packL2, packedLength, List.length_cons, List.length_flatMap, packRecord_length]
  omega

/-- One pass of the loop of `parse_l2` over a packed record (R232). -/
theorem parseRecords_packRecord (fuel : Nat) {r : Record} (h : r.value.length ≤ 65535) (rest : List Byte) :
    parseRecords (fuel + 1) (packRecord r ++ rest) = (parseRecords fuel rest).map (r :: ·) := by
  simp [packRecord, le16Bytes, parseRecords, half_toNat h]

/-- Packed records are parsed back, with enough fuel. -/
theorem parseRecords_flatMap {recs : List Record} (h : ShortValues recs) {fuel : Nat} (hf : recs.length ≤ fuel) :
    parseRecords fuel (recs.flatMap packRecord) = some recs := by
  induction recs generalizing fuel with
  | nil => cases fuel <;> rfl
  | cons r recs ih =>
    obtain ⟨fuel, rfl⟩ : ∃ n, fuel = n + 1 := ⟨fuel - 1, by simp only [List.length_cons] at hf; omega⟩
    rw [List.flatMap_cons, parseRecords_packRecord fuel (h r List.mem_cons_self),
      ih (fun q hq => h q (List.mem_cons_of_mem _ hq)) (by simpa using hf)]
    rfl

/-- What is parsed is what was packed: the records tile the bytes (R242), and their values are short. -/
theorem parseRecords_eq_some {fuel : Nat} {d : List Byte} {recs : List Record}
    (h : parseRecords fuel d = some recs) : recs.flatMap packRecord = d ∧ ShortValues recs := by
  induction fuel generalizing d recs with
  | zero =>
    cases d with
    | nil => simp_all [parseRecords, ShortValues]
    | cons b d => simp [parseRecords] at h
  | succ fuel ih =>
    match d with
    | [] => simp_all [parseRecords, ShortValues]
    | [_] | [_, _] => simp [parseRecords] at h
    | k :: b0 :: b1 :: rest =>
      rw [parseRecords] at h
      split at h
      · cases h
      · obtain ⟨recs', h1, rfl⟩ := Option.map_eq_some_iff.mp h
        obtain ⟨h2, h3⟩ := ih h1
        have hlen : (rest.take (le16 b0 b1).toNat).length = (le16 b0 b1).toNat := by
          rw [List.length_take]
          omega
        refine ⟨?_, ?_⟩
        · simp [packRecord, le16Bytes, hlen, half, h2, BitVec.ofNat_toNat]
        · intro r hr
          rcases List.mem_cons.mp hr with rfl | hr
          · have := (le16 b0 b1).isLt
            simp only [hlen]
            omega
          · exact h3 r hr

/-- A message of at least two bytes is parsed by its records (R232). -/
theorem parseL2_eq_some {d : List Byte} {cmd flags : Byte} {recs : List Record}
    (h : parseL2 d = some (cmd, flags, recs)) : packL2 cmd flags recs = d ∧ ShortValues recs := by
  match d with
  | [] | [_] => simp [parseL2] at h
  | c :: f :: rest =>
    obtain ⟨recs', h1, h2⟩ := Option.map_eq_some_iff.mp h
    cases h2
    obtain ⟨h3, h4⟩ := parseRecords_eq_some h1
    exact ⟨by rw [packL2, h3], h4⟩

/-- The number of records is at most the number of their bytes. -/
theorem length_le_flatMap (recs : List Record) : recs.length ≤ (recs.flatMap packRecord).length := by
  induction recs with
  | nil => simp
  | cons r recs ih =>
    simp only [List.flatMap_cons, List.length_append, List.length_cons, packRecord_length]
    omega

end Sys2Proof.Machine
end

