-- ==== Sys2Proof/Laws/Crc.lean ====
section
/-! SUPPORT. The CRC as a fold (41_crc16.md R181) and the steps of the table generator (R183). -/

namespace Sys2Proof.Machine

open Sys2Proof

@[simp] theorem crc16_nil (T : CrcTable) : crc16 T [] = 0 := rfl

/-- The fold continues where it stands (R181). -/
theorem crc16_append (T : CrcTable) (d e : List Byte) : crc16 T (d ++ e) = e.foldl (crcStep T) (crc16 T d) := by
  simp [crc16]

@[simp] theorem crcShift_zero (P : Half) : crcShift P 0 = 0 := by simp [crcShift]

theorem crcShift_xor (P a b : Half) : crcShift P (a ^^^ b) = crcShift P a ^^^ crcShift P b := by
  unfold crcShift
  rw [BitVec.getLsbD_xor, BitVec.ushiftRight_xor_distrib]
  cases a.getLsbD 0 <;> cases b.getLsbD 0 <;> simp
  · ac_rfl
  · ac_rfl
  · rw [show (a >>> 1 ^^^ P) ^^^ (b >>> 1 ^^^ P) = a >>> 1 ^^^ b >>> 1 ^^^ (P ^^^ P) by ac_rfl]
    simp

theorem crcShifts_xor (P : Half) (n : Nat) (a b : Half) :
    crcShifts P n (a ^^^ b) = crcShifts P n a ^^^ crcShifts P n b := by
  induction n generalizing a b with
  | zero => rfl
  | succ n ih => rw [crcShifts, crcShift_xor, ih]; rfl

@[simp] theorem crcShifts_zero (P : Half) (n : Nat) : crcShifts P n 0 = 0 := by
  induction n with
  | zero => rfl
  | succ n ih => rw [crcShifts, crcShift_zero, ih]

/-- With bit 15 of `P` set a step of R183 can be undone: bit 15 of its result tells which case it took. -/
theorem crcShift_eq_zero {P r : Half} (hP : P.getLsbD 15 = true) (h : crcShift P r = 0) : r = 0 := by
  have hbit (k : Nat) := congrArg (fun v : Half => v.getLsbD k) h
  unfold crcShift at hbit
  have h0 : r.getLsbD 0 = false := by
    by_contra hr
    have := hbit 15
    rw [if_pos (by simpa using hr)] at this
    rw [BitVec.getLsbD_xor, hP, BitVec.getLsbD_ushiftRight, BitVec.getLsbD_of_ge r _ (by decide)] at this
    simp at this
  rw [h0] at hbit
  ext k hk
  rw [← BitVec.getLsbD_eq_getElem hk]
  rcases Nat.eq_zero_or_pos k with rfl | hpos
  · rw [h0]
    simp
  · have := hbit (k - 1)
    simpa [show 1 + (k - 1) = k by omega] using this

/-- The steps lose nothing when bit 15 of `P` is set. -/
theorem crcShifts_eq_zero {P : Half} (hP : P.getLsbD 15 = true) {n : Nat} {r : Half} (h : crcShifts P n r = 0) :
    r = 0 := by
  induction n generalizing r with
  | zero => exact h
  | succ n ih => exact crcShift_eq_zero hP (ih h)

/-- An entry of a generated table (R183). -/
theorem crcTableOf_get (P : Half) (i : Fin 256) : (crcTableOf P).get i = crcShifts P 8 (BitVec.ofNat 16 i.val) := by
  have h : (crcTableOf P).get i = (crcTableOf P)[i.val] := rfl
  rw [h, crcTableOf, Vector.getElem_ofFn, crcEntry]

/-- Steps on a value whose low bits are clear only shift it. -/
theorem crcShifts_of_clear (P : Half) (n : Nat) (r : Half) (h : ∀ k < n, r.getLsbD k = false) :
    crcShifts P n r = r >>> n := by
  induction n generalizing r with
  | zero => rfl
  | succ n ih =>
    have h0 := h 0 (by omega)
    rw [crcShifts, crcShift, if_neg (by simpa using h0), ih]
    · rw [← BitVec.shiftRight_add, Nat.add_comm]
    · intro k hk
      rw [BitVec.getLsbD_ushiftRight]
      exact h _ (by omega)

/-- Bits 7 to 0 of the constant that selects a low byte, and of the one that clears it. -/
theorem lowMask_getLsbD (k : Nat) : (0x00FF#16).getLsbD k = decide (k < 8) := by
  rcases Nat.lt_or_ge k 16 with h | h
  · revert h k
    decide
  · simp [BitVec.getLsbD_of_ge _ k h, show ¬ k < 8 by omega]

theorem highMask_getLsbD (k : Nat) : (0xFF00#16).getLsbD k = decide (8 ≤ k ∧ k < 16) := by
  rcases Nat.lt_or_ge k 16 with h | h
  · revert h k
    decide
  · simp [BitVec.getLsbD_of_ge _ k h, show ¬ k < 16 by omega]

/-- A value is its low byte plus the rest. -/
theorem low_xor_high (r : Half) : (r &&& 0x00FF#16) ^^^ (r &&& 0xFF00#16) = r := by
  ext k hk
  simp only [← BitVec.getLsbD_eq_getElem hk, BitVec.getLsbD_xor, BitVec.getLsbD_and, lowMask_getLsbD, highMask_getLsbD]
  by_cases h : k < 8
  · simp [h, show ¬ 8 ≤ k by omega]
  · simp [h, hk, show 8 ≤ k by omega]

theorem high_ushiftRight (r : Half) : (r &&& 0xFF00#16) >>> 8 = r >>> 8 := by
  ext k hk
  simp only [← BitVec.getLsbD_eq_getElem hk, BitVec.getLsbD_ushiftRight, BitVec.getLsbD_and, highMask_getLsbD]
  by_cases h : 8 + k < 16
  · simp [h]
  · simp [BitVec.getLsbD_of_ge r (8 + k) (by omega)]

/-- Eight steps work on the low byte; the rest is shifted out as it stands. -/
theorem crcShifts_eight (P r : Half) : crcShifts P 8 r = crcShifts P 8 (r &&& 0x00FF#16) ^^^ (r >>> 8) := by
  have high : crcShifts P 8 (r &&& 0xFF00#16) = r >>> 8 :=
    (crcShifts_of_clear P 8 _ fun k hk => by
      rw [BitVec.getLsbD_and, highMask_getLsbD]
      simp [show ¬ 8 ≤ k by omega]).trans (high_ushiftRight r)
  calc crcShifts P 8 r = crcShifts P 8 ((r &&& 0x00FF#16) ^^^ (r &&& 0xFF00#16)) := congrArg _ (low_xor_high r).symm
    _ = crcShifts P 8 (r &&& 0x00FF#16) ^^^ crcShifts P 8 (r &&& 0xFF00#16) := crcShifts_xor ..
    _ = _ := congrArg _ high

end Sys2Proof.Machine
end

