-- ==== Sys2Proof/Laws/Decode.lean ====
section
/-! SUPPORT. The fields of a command word put together by mkWord, and the must-be-zero bits as such a word. -/

namespace Sys2Proof

/-- Bit `i` of a word of three fields. -/
theorem mkWord_getLsbD (op a : Byte) (b : Half) (i : Nat) : (mkWord op a b).getLsbD i =
    if i < 16 then b.getLsbD i else if i < 24 then a.getLsbD (i - 16) else op.getLsbD (i - 24) := by
  unfold mkWord
  rw [BitVec.getLsbD_append, BitVec.getLsbD_append]
  by_cases h1 : i < 16
  · simp [h1]
  · by_cases h2 : i < 24
    · simp [h1, h2, show i - 16 < 8 by omega]
    · simp [h1, h2, show ¬ i - 16 < 8 by omega, show i - 16 - 8 = i - 24 by omega]

@[simp] theorem opField_mkWord (op a : Byte) (b : Half) : opField (mkWord op a b) = op := by
  ext i hi
  simp [opField, mkWord_getLsbD, show ¬ 24 + i < 16 by omega, BitVec.getLsbD_eq_getElem hi]

@[simp] theorem imm16Field_mkWord (op a : Byte) (b : Half) : imm16Field (mkWord op a b) = b := by
  ext i hi
  simp [imm16Field, mkWord_getLsbD, hi]

@[simp] theorem imm8Field_mkWord (op a : Byte) (b : Half) : imm8Field (mkWord op a b) = b.setWidth 8 := by
  ext i hi
  simp [imm8Field, mkWord_getLsbD, show i < 16 by omega]

@[simp] theorem idxField_mkWord (op a : Byte) (b : Half) : idxField (mkWord op a b) = a.setWidth 4 := by
  ext i hi
  simp [idxField, mkWord_getLsbD, show 16 + i < 24 by omega]

/-- AND goes field by field. -/
theorem mkWord_and (op a op' a' : Byte) (b b' : Half) :
    mkWord op a b &&& mkWord op' a' b' = mkWord (op &&& op') (a &&& a') (b &&& b') := by
  ext i hi
  simp only [← BitVec.getLsbD_eq_getElem, BitVec.getLsbD_and, mkWord_getLsbD]
  split <;> [rfl; split <;> rfl]

/-- Every word is the word of its three fields (R100). -/
theorem mkWord_fields (w : Word) : mkWord (opField w) (w.extractLsb' 16 8) (imm16Field w) = w := by
  ext i hi
  simp only [← BitVec.getLsbD_eq_getElem, mkWord_getLsbD, opField, imm16Field, BitVec.getLsbD_extractLsb']
  by_cases h1 : i < 16
  · simp [h1]
  · by_cases h2 : i < 24
    · simp [h1, h2, show i - 16 < 8 by omega, show 16 + (i - 16) = i by omega]
    · simp [h1, h2, show i - 24 < 8 by omega, show 24 + (i - 24) = i by omega]

/-- Words with equal fields are equal, and only those. -/
theorem mkWord_inj {op a op' a' : Byte} {b b' : Half} :
    mkWord op a b = mkWord op' a' b' ↔ op = op' ∧ a = a' ∧ b = b' := by
  constructor
  · intro h
    refine ⟨?_, ?_, ?_⟩
    · simpa using congrArg opField h
    · have := congrArg (fun w : Word => w.extractLsb' 16 8) h
      have e : ∀ (x y : Byte) (z : Half), (mkWord x y z).extractLsb' 16 8 = y := by
        intro x y z
        ext i hi
        simp [mkWord_getLsbD, show 16 + i < 24 by omega, BitVec.getLsbD_eq_getElem hi]
      simpa [e] using this
    · simpa using congrArg imm16Field h
  · rintro ⟨rfl, rfl, rfl⟩
    rfl

/-- The must-be-zero bits of each format, field by field (R101 to R104). -/
theorem mustBeZero_eq_mkWord (f : Format) : f.mustBeZero =
    mkWord 0 (match f with | .ab8 => 0xF0 | _ => 0xFF) (match f with | .z => 0xFFFF | .b16 => 0 | _ => 0xFF00) := by
  cases f <;> decide

/-- A word keeps its must-be-zero bits clear exactly when its A and its B field do (R111). -/
theorem and_mustBeZero (w : Word) (f : Format) : w &&& f.mustBeZero = 0 ↔
    (w.extractLsb' 16 8 &&& (match f with | .ab8 => 0xF0 | _ => 0xFF) = 0) ∧
    (imm16Field w &&& (match f with | .z => 0xFFFF | .b16 => 0 | _ => 0xFF00) = 0) := by
  conv_lhs => rw [← mkWord_fields w, mustBeZero_eq_mkWord, mkWord_and]
  rw [show (0 : Word) = mkWord 0 0 0 by decide, mkWord_inj]
  exact and_iff_right (BitVec.and_zero (x := opField w))

/-- A byte in an operand half sets none of its upper bits. -/
theorem byte_operand_fits (b : Byte) : b.setWidth 16 &&& 0xFF00#16 = 0 := by
  revert b
  decide +kernel

/-- An index in the A field sets none of its upper bits. -/
theorem index_operand_fits (i : BitVec 4) : i.setWidth 8 &&& 0xF0#8 = 0 := by
  revert i
  decide +kernel

/-- A half with clear upper bits is its low byte. -/
theorem half_of_low_byte {h : Half} (e : h &&& 0xFF00#16 = 0) : (h.setWidth 8).setWidth 16 = h := by
  have hb (k : Nat) : (h.getLsbD k && (0xFF00#16).getLsbD k) = false := by
    rw [← BitVec.getLsbD_and, e]
    simp
  have mask : ∀ k < 16, 8 ≤ k → (0xFF00#16).getLsbD k = true := by decide
  ext k hk
  simp only [← BitVec.getLsbD_eq_getElem hk, BitVec.getLsbD_setWidth, hk]
  by_cases h8 : k < 8
  · simp [h8]
  · have := hb k
    rw [mask k hk (by omega), Bool.and_true] at this
    simp [h8, this]

/-- A byte with clear upper bits is its low four bits. -/
theorem byte_of_low_nibble {b : Byte} (e : b &&& 0xF0#8 = 0) : (b.setWidth 4).setWidth 8 = b := by
  revert b
  decide +kernel

/-- The 8-bit immediate is the low byte of the 16-bit one. -/
theorem imm8Field_eq (w : Word) : imm8Field w = (imm16Field w).setWidth 8 := by
  conv => lhs; rw [← mkWord_fields w]
  exact imm8Field_mkWord ..

/-- The index is the low four bits of the A field. -/
theorem idxField_eq (w : Word) : idxField w = (w.extractLsb' 16 8).setWidth 4 := by
  conv => lhs; rw [← mkWord_fields w]
  exact idxField_mkWord ..

end Sys2Proof
end

