-- ==== Sys2Proof/Laws/Exec.lean ====
section
/-! SUPPORT. Everything a command can do, said once: `Completes` when all its checks pass, `Stops` at the first check
that fails. Later proofs take these apart and never unfold a meaning. -/

namespace Sys2Proof.Machine

variable {i : Instr} {s s' t : State} {e : Err}

/-- The command passes its checks in `s` and leaves `s'`, up to STATUS.ERR. -/
inductive Completes : Instr → State → State → Prop where
  | nop {s : State} : Completes .nop s s
  | srst {s : State} : Completes .srst s s.toReset
  | iclr {s : State} : Completes .iclr s (s.setIbuf [])
  | ipush {s : State} (b : Byte) (fits : Fits s.params.ibufCap (s.ilen + 1)) :
      Completes (.ipush b) s (s.setIbuf (s.ibuf ++ [b]))
  | oclr {s : State} : Completes .oclr s (s.setObuf [])
  | otoi {s : State} (fits : Fits s.params.ibufCap s.olen) : Completes .otoi s (s.setIbuf s.obuf)
  | setf {s : State} (b : Byte) : Completes (.setf b) s (s.setL1Flags b)
  | setseq {s : State} (h : Half) : Completes (.setseq h) s (s.setL1Seq h)
  | setcmd {s : State} (b : Byte) : Completes (.setcmd b) s (s.setL2Cmd b)
  | setl2f {s : State} (b : Byte) : Completes (.setl2f b) s (s.setL2Flags b)
  | setkey {s : State} (idx : BitVec 4) (b : Byte) : Completes (.setkey idx b) s (s.setKeyByte idx b)
  | fclr {s : State} : Completes .fclr s (s.setFtab [])
  | fadd {s : State} (k : Byte) (short : s.ilen ≤ 65535) (fitsRecord : Fits s.params.ftabCap (s.fcnt + 1))
      (fitsValue : Fits s.params.fvalCap (valueBytes s.ftab + s.ilen)) :
      Completes (.fadd k) s (s.setFtab (s.ftab ++ [⟨k, s.ibuf⟩]))
  | flook {s : State} (k : Byte) (r : Record) (only : recordsWith k s.ftab = [r])
      (fits : Fits s.params.obufCap r.value.length) : Completes (.flook k) s (s.setObuf r.value)
  | crc16 {s : State} : Completes .crc16 s (s.setCrcr (crc16 s.params.crcTable s.ibuf))
  | l1pack {s : State} (short : s.ilen ≤ 65535) (fits : Fits s.params.obufCap (8 + s.ilen)) :
      Completes .l1pack s ((s.setObuf (packL1 s.params.crcTable s.l1flags s.l1seq s.ibuf)).setL1LenCrc (half s.ilen)
        (crc16 s.params.crcTable s.ibuf))
  | l1parseHeader {s : State} (n : Nat) (result : parseL1 s.params.crcTable s.ibuf = .shortHeader n) :
      Completes .l1parse s ((s.setObuf []).setProgress (half n) 0 true)
  | l1parsePartial {s : State} (c : List Byte) (h : L1Header) (n : Nat)
      (result : parseL1 s.params.crcTable s.ibuf = .shortPayload c h n) (fits : Fits s.params.obufCap c.length) :
      Completes .l1parse s (((s.setObuf c).setL1Header h).setProgress (half n) 0 true)
  | l1parseWhole {s : State} (c : List Byte) (h : L1Header) (n : Nat)
      (result : parseL1 s.params.crcTable s.ibuf = .complete c h n) (fits : Fits s.params.obufCap c.length) :
      Completes .l1parse s (((s.setObuf c).setL1Header h).setProgress 0 (word32 n) false)
  | l2pack {s : State} (fits : Fits s.params.obufCap (packedLength s.ftab)) :
      Completes .l2pack s (s.setObuf (packL2 s.l2cmd s.l2flags s.ftab))
  | l2parse {s : State} (c f : Byte) (recs : List Record) (result : parseL2 s.ibuf = some (c, f, recs))
      (fitsRecords : Fits s.params.ftabCap recs.length) (fitsValues : Fits s.params.fvalCap (valueBytes recs)) :
      Completes .l2parse s (((s.setL2Cmd c).setL2Flags f).setFtab recs)
  | aesenc {s : State} (ready : s.kvalid = 0xFFFF) (aligned : s.ilen % 16 = 0) (fits : Fits s.params.obufCap s.ilen) :
      Completes .aesenc s (s.setObuf (encryptEcb s.key s.ibuf))
  | aesdec {s : State} (ready : s.kvalid = 0xFFFF) (aligned : s.ilen % 16 = 0) (fits : Fits s.params.obufCap s.ilen) :
      Completes .aesdec s (s.setObuf (decryptEcb s.key s.ibuf))

/-- The command's first failing check in `s` raises `e`. -/
inductive Stops : Instr → State → Err → Prop where
  | ipush {s : State} (b : Byte) (full : ¬ Fits s.params.ibufCap (s.ilen + 1)) : Stops (.ipush b) s .cap
  | otoi {s : State} (full : ¬ Fits s.params.ibufCap s.olen) : Stops .otoi s .cap
  | faddLength {s : State} (k : Byte) (long : 65535 < s.ilen) : Stops (.fadd k) s .len
  | faddRecord {s : State} (k : Byte) (short : s.ilen ≤ 65535) (full : ¬ Fits s.params.ftabCap (s.fcnt + 1)) :
      Stops (.fadd k) s .cap
  | faddValue {s : State} (k : Byte) (short : s.ilen ≤ 65535) (fitsRecord : Fits s.params.ftabCap (s.fcnt + 1))
      (full : ¬ Fits s.params.fvalCap (valueBytes s.ftab + s.ilen)) : Stops (.fadd k) s .cap
  | flookNone {s : State} (k : Byte) (none : recordsWith k s.ftab = []) : Stops (.flook k) s .noField
  | flookTwo {s : State} (k : Byte) (r q : Record) (rest : List Record) (two : recordsWith k s.ftab = r :: q :: rest) :
      Stops (.flook k) s .dupKey
  | flookCap {s : State} (k : Byte) (r : Record) (only : recordsWith k s.ftab = [r])
      (full : ¬ Fits s.params.obufCap r.value.length) : Stops (.flook k) s .cap
  | l1packLength {s : State} (long : 65535 < s.ilen) : Stops .l1pack s .len
  | l1packCap {s : State} (short : s.ilen ≤ 65535) (full : ¬ Fits s.params.obufCap (8 + s.ilen)) : Stops .l1pack s .cap
  | l1parseFraming {s : State} (result : parseL1 s.params.crcTable s.ibuf = .framing) : Stops .l1parse s .framing
  | l1parseChecksum {s : State} (result : parseL1 s.params.crcTable s.ibuf = .checksum) : Stops .l1parse s .checksum
  | l1parsePartial {s : State} (c : List Byte) (h : L1Header) (n : Nat)
      (result : parseL1 s.params.crcTable s.ibuf = .shortPayload c h n) (full : ¬ Fits s.params.obufCap c.length) :
      Stops .l1parse s .cap
  | l1parseWhole {s : State} (c : List Byte) (h : L1Header) (n : Nat)
      (result : parseL1 s.params.crcTable s.ibuf = .complete c h n) (full : ¬ Fits s.params.obufCap c.length) :
      Stops .l1parse s .cap
  | l2pack {s : State} (full : ¬ Fits s.params.obufCap (packedLength s.ftab)) : Stops .l2pack s .cap
  | l2parseTrunc {s : State} (result : parseL2 s.ibuf = none) : Stops .l2parse s .trunc
  | l2parseRecords {s : State} (c f : Byte) (recs : List Record) (result : parseL2 s.ibuf = some (c, f, recs))
      (full : ¬ Fits s.params.ftabCap recs.length) : Stops .l2parse s .cap
  | l2parseValues {s : State} (c f : Byte) (recs : List Record) (result : parseL2 s.ibuf = some (c, f, recs))
      (fitsRecords : Fits s.params.ftabCap recs.length) (full : ¬ Fits s.params.fvalCap (valueBytes recs)) :
      Stops .l2parse s .cap
  | aesencKey {s : State} (unready : s.kvalid ≠ 0xFFFF) : Stops .aesenc s .key
  | aesencAlign {s : State} (ready : s.kvalid = 0xFFFF) (ragged : s.ilen % 16 ≠ 0) : Stops .aesenc s .align
  | aesencCap {s : State} (ready : s.kvalid = 0xFFFF) (aligned : s.ilen % 16 = 0)
      (full : ¬ Fits s.params.obufCap s.ilen) : Stops .aesenc s .cap
  | aesdecKey {s : State} (unready : s.kvalid ≠ 0xFFFF) : Stops .aesdec s .key
  | aesdecAlign {s : State} (ready : s.kvalid = 0xFFFF) (ragged : s.ilen % 16 ≠ 0) : Stops .aesdec s .align
  | aesdecCap {s : State} (ready : s.kvalid = 0xFFFF) (aligned : s.ilen % 16 = 0)
      (full : ¬ Fits s.params.obufCap s.ilen) : Stops .aesdec s .cap

/-- A command that passes its checks goes on to what `Completes` says. -/
theorem Completes.exec_eq (h : Completes i s s') : exec i s = .next s'.complete := by
  cases h <;> simp_all [exec, execNop, execSrst, execIclr, execIpush, execOclr, execOtoi, execSetf, execSetseq,
    execSetcmd, execSetl2f, execSetkey, execFclr, execFadd, execFlook, execCrc16, execL1pack, execL1parse, execL2pack,
    execL2parse, execAesenc, execAesdec, cipherCommand, raiseIf, State.keyReady] <;> rw [if_neg (by omega), conclude_ok]

/-- A command that fails a check records that error alone. -/
theorem Stops.exec_eq (h : Stops i s e) : exec i s = .next (s.raiseError e) := by
  cases h <;> simp_all [exec, execIpush, execOtoi, execFadd, execFlook, execL1pack, execL1parse, execL2pack,
    execL2parse, execAesenc, execAesdec, cipherCommand, raiseIf, State.keyReady] <;>
    rw [if_neg (by omega), conclude_error]

/-- Every command completes or stops in every state (R156, R313). -/
theorem completes_or_stops (i : Instr) (s : State) : (∃ s', Completes i s s') ∨ ∃ e, Stops i s e := by
  cases i with
  | nop => exact .inl ⟨_, .nop⟩
  | srst => exact .inl ⟨_, .srst⟩
  | iclr => exact .inl ⟨_, .iclr⟩
  | ipush b => exact (em _).imp (fun h => ⟨_, .ipush b h⟩) fun h => ⟨_, .ipush b h⟩
  | oclr => exact .inl ⟨_, .oclr⟩
  | otoi => exact (em _).imp (fun h => ⟨_, .otoi h⟩) fun h => ⟨_, .otoi h⟩
  | setf b => exact .inl ⟨_, .setf b⟩
  | setseq h => exact .inl ⟨_, .setseq h⟩
  | setcmd b => exact .inl ⟨_, .setcmd b⟩
  | setl2f b => exact .inl ⟨_, .setl2f b⟩
  | setkey idx b => exact .inl ⟨_, .setkey idx b⟩
  | fclr => exact .inl ⟨_, .fclr⟩
  | fadd k =>
    rcases Nat.lt_or_ge 65535 s.ilen with h | h
    · exact .inr ⟨_, .faddLength k h⟩
    · by_cases h1 : Fits s.params.ftabCap (s.fcnt + 1)
      · exact (em _).imp (fun h2 => ⟨_, .fadd k h h1 h2⟩) fun h2 => ⟨_, .faddValue k h h1 h2⟩
      · exact .inr ⟨_, .faddRecord k h h1⟩
  | flook k =>
    rcases h : recordsWith k s.ftab with _ | ⟨r, _ | ⟨q, rest⟩⟩
    · exact .inr ⟨_, .flookNone k h⟩
    · exact (em _).imp (fun h2 => ⟨_, .flook k r h h2⟩) fun h2 => ⟨_, .flookCap k r h h2⟩
    · exact .inr ⟨_, .flookTwo k r q rest h⟩
  | crc16 => exact .inl ⟨_, .crc16⟩
  | l1pack =>
    rcases Nat.lt_or_ge 65535 s.ilen with h | h
    · exact .inr ⟨_, .l1packLength h⟩
    · exact (em _).imp (fun h2 => ⟨_, .l1pack h h2⟩) fun h2 => ⟨_, .l1packCap h h2⟩
  | l1parse =>
    rcases h : parseL1 s.params.crcTable s.ibuf with _ | _ | n | ⟨c, hd, n⟩ | ⟨c, hd, n⟩
    · exact .inr ⟨_, .l1parseFraming h⟩
    · exact .inr ⟨_, .l1parseChecksum h⟩
    · exact .inl ⟨_, .l1parseHeader n h⟩
    · exact (em _).imp (fun h2 => ⟨_, .l1parsePartial c hd n h h2⟩) fun h2 => ⟨_, .l1parsePartial c hd n h h2⟩
    · exact (em _).imp (fun h2 => ⟨_, .l1parseWhole c hd n h h2⟩) fun h2 => ⟨_, .l1parseWhole c hd n h h2⟩
  | l2pack => exact (em _).imp (fun h => ⟨_, .l2pack h⟩) fun h => ⟨_, .l2pack h⟩
  | l2parse =>
    rcases h : parseL2 s.ibuf with _ | ⟨c, f, recs⟩
    · exact .inr ⟨_, .l2parseTrunc h⟩
    · by_cases h1 : Fits s.params.ftabCap recs.length
      · exact (em _).imp (fun h2 => ⟨_, .l2parse c f recs h h1 h2⟩) fun h2 => ⟨_, .l2parseValues c f recs h h1 h2⟩
      · exact .inr ⟨_, .l2parseRecords c f recs h h1⟩
  | aesenc =>
    by_cases h : s.kvalid = 0xFFFF
    · by_cases h1 : s.ilen % 16 = 0
      · exact (em _).imp (fun h2 => ⟨_, .aesenc h h1 h2⟩) fun h2 => ⟨_, .aesencCap h h1 h2⟩
      · exact .inr ⟨_, .aesencAlign h h1⟩
    · exact .inr ⟨_, .aesencKey h⟩
  | aesdec =>
    by_cases h : s.kvalid = 0xFFFF
    · by_cases h1 : s.ilen % 16 = 0
      · exact (em _).imp (fun h2 => ⟨_, .aesdec h h1 h2⟩) fun h2 => ⟨_, .aesdecCap h h1 h2⟩
      · exact .inr ⟨_, .aesdecAlign h h1⟩
    · exact .inr ⟨_, .aesdecKey h⟩

/-- Inversion: a next state is the completed one or the one that records the error. -/
theorem exec_cases (h : exec i s = .next t) :
    (∃ s', Completes i s s' ∧ t = s'.complete) ∨ ∃ e, Stops i s e ∧ t = s.raiseError e := by
  rcases completes_or_stops i s with ⟨s', hc⟩ | ⟨e, he⟩
  · exact .inl ⟨s', hc, by simpa [hc.exec_eq, eq_comm] using h⟩
  · exact .inr ⟨e, he, by simpa [he.exec_eq, eq_comm] using h⟩

/-- The errors a command can stop with are those the matrix of R340 gives it. -/
theorem Stops.mayRaise (h : Stops i s e) : MayRaise i e = true := by cases h <;> rfl

/-- A completed command changes neither parameters nor inputs (R353). -/
theorem Completes.params_inputs (h : Completes i s s') : s'.params = s.params ∧ s'.inputs = s.inputs := by
  cases h <;> exact ⟨rfl, rfl⟩

/-- Only SRST clears bits of the log, and completing sets none (R57, R310). -/
theorem Completes.errlog_eq (h : Completes i s s') (hi : i ≠ .srst) : s'.errlog = s.errlog := by
  cases h <;> first | rfl | exact absurd rfl hi

end Sys2Proof.Machine
end

