-- ==== Sys2Proof/Laws/Memory.lean ====
section
/-! SUPPORT. Every store operation keeps the canonical form of the stores, `Memory.wf` (10_state.md R32, R35, R51), and
every command does. -/

namespace Sys2Proof.Machine

variable {i : Instr} {s s' : State}

/-- The form, bound by bound. -/
theorem wf_iff : s.wf = true ↔ Fits s.params.ibufCap s.ibuf.length ∧ Fits s.params.obufCap s.obuf.length ∧
    Fits s.params.ftabCap s.ftab.length ∧ Fits s.params.fvalCap (valueBytes s.ftab) ∧ ShortValues s.ftab := by
  simp [State.wf, Memory.wf, ShortValues, and_assoc]

@[simp] theorem Fits_zero (c : Cap) : Fits c 0 := by cases c <;> simp [Fits]

@[simp] theorem valueBytes_nil : valueBytes [] = 0 := rfl

@[simp] theorem valueBytes_append (rs : List Record) (r : Record) :
    valueBytes (rs ++ [r]) = valueBytes rs + r.value.length := by
  simp [valueBytes]

theorem setIbuf_wf {d : List Byte} (h : s.wf = true) (hd : Fits s.params.ibufCap d.length) : (s.setIbuf d).wf = true := by
  rw [wf_iff] at *
  exact ⟨hd, h.2⟩

theorem setObuf_wf {d : List Byte} (h : s.wf = true) (hd : Fits s.params.obufCap d.length) : (s.setObuf d).wf = true := by
  rw [wf_iff] at *
  exact ⟨h.1, hd, h.2.2⟩

theorem setFtab_wf {rs : List Record} (h : s.wf = true) (hn : Fits s.params.ftabCap rs.length)
    (hv : Fits s.params.fvalCap (valueBytes rs)) (hs : ShortValues rs) : (s.setFtab rs).wf = true := by
  rw [wf_iff] at *
  exact ⟨h.1, h.2.1, hn, hv, hs⟩

/-- A state with the same parameters and stores has the form too: completing, raising and the register writes. -/
theorem wf_of_same_stores (h : s.wf = true) (hp : s'.params = s.params) (hi : s'.ibuf = s.ibuf)
    (ho : s'.obuf = s.obuf) (hf : s'.ftab = s.ftab) : s'.wf = true := by
  rw [State.wf, hp, hi, ho, hf]
  exact h

theorem toReset_wf (s : State) : s.toReset.wf = true :=
  wf_of_same_stores (resetWith_wf s.params) rfl rfl rfl rfl

/-- The field table a completed FLOOK reads from holds the record it delivers. -/
theorem mem_of_recordsWith {k : Byte} {rs : List Record} {r : Record} (h : recordsWith k rs = [r]) : r ∈ rs := by
  have : r ∈ recordsWith k rs := by simp [h]
  exact (List.mem_filter.mp this).1

/-- A completed command keeps the form. -/
theorem Completes.wf (h : Completes i s s') (hw : s.wf = true) : s'.wf = true := by
  have w := wf_iff.mp hw
  cases h with
  | nop | setf | setseq | setcmd | setl2f | setkey | crc16 => exact hw
  | srst => exact toReset_wf s
  | iclr => exact setIbuf_wf hw (Fits_zero _)
  | ipush b fits => exact setIbuf_wf hw (by simpa [State.ilen] using fits)
  | oclr => exact setObuf_wf hw (Fits_zero _)
  | otoi fits => exact setIbuf_wf hw fits
  | fclr => exact setFtab_wf hw (Fits_zero _) (Fits_zero _) (by simp [ShortValues])
  | fadd k short fitsRecord fitsValue =>
    refine setFtab_wf hw (by simpa [State.fcnt] using fitsRecord) (by simpa [State.ilen] using fitsValue) fun r hr => ?_
    rcases List.mem_append.mp hr with hr | hr
    · exact w.2.2.2.2 r hr
    · rw [List.mem_singleton.mp hr]
      exact short
  | flook k r only fits => exact setObuf_wf hw fits
  | l1pack short fits => exact wf_of_same_stores (setObuf_wf hw (by simpa [State.ilen] using fits)) rfl rfl rfl rfl
  | l1parseHeader n result => exact wf_of_same_stores (setObuf_wf hw (Fits_zero _)) rfl rfl rfl rfl
  | l1parsePartial c h n result fits => exact wf_of_same_stores (setObuf_wf hw fits) rfl rfl rfl rfl
  | l1parseWhole c h n result fits => exact wf_of_same_stores (setObuf_wf hw fits) rfl rfl rfl rfl
  | l2pack fits => exact setObuf_wf hw (by rwa [packL2_length])
  | l2parse c f recs result fitsRecords fitsValues =>
    exact setFtab_wf (wf_of_same_stores hw rfl rfl rfl rfl) fitsRecords fitsValues (parseL2_eq_some result).2
  | aesenc ready aligned fits => exact setObuf_wf hw (by rwa [encryptEcb, ecb_length _ _ aligned])
  | aesdec ready aligned fits => exact setObuf_wf hw (by rwa [decryptEcb, ecb_length _ _ aligned])

end Sys2Proof.Machine
end

