-- ==== Sys2Proof/Laws/PerInstr.lean ====
section
/-! SUPPORT. One law per command: the word of a command lies in its row of the opcode table (30_encoding.md R110). -/

namespace Sys2Proof.Laws.TableRow

/-- `(w AND mask) = match` for the row of the command (R110). -/
def Statement (i : Instr) : Prop := encode i &&& i.format.mask = i.matchWord

theorem and_byteMask (op : Byte) : op &&& 0xFF#8 = op := by
  rw [show 0xFF#8 = BitVec.allOnes 8 by decide, BitVec.and_allOnes]

/-- The mask of format B8 keeps the opcode alone (R102). -/
theorem masked_b8 (op imm8 : Byte) : mkWord op 0 (imm8.setWidth 16) &&& Format.b8.mask = mkWord op 0 0 := by
  rw [show Format.b8.mask = mkWord 0xFF#8 0xFF#8 0xFF00#16 by decide, mkWord_and, byte_operand_fits, and_byteMask,
    and_byteMask]

/-- The mask of format B16 keeps the opcode alone (R103). -/
theorem masked_b16 (op : Byte) (imm16 : Half) : mkWord op 0 imm16 &&& Format.b16.mask = mkWord op 0 0 := by
  rw [show Format.b16.mask = mkWord 0xFF#8 0xFF#8 0#16 by decide, mkWord_and, and_byteMask, and_byteMask,
    BitVec.and_zero]
  rfl

/-- The mask of format AB8 keeps the opcode alone (R104). -/
theorem masked_ab8 (op : Byte) (idx : BitVec 4) (imm8 : Byte) :
    mkWord op (idx.setWidth 8) (imm8.setWidth 16) &&& Format.ab8.mask = mkWord op 0 0 := by
  rw [show Format.ab8.mask = mkWord 0xFF#8 0xF0#8 0xFF00#16 by decide, mkWord_and, index_operand_fits,
    byte_operand_fits, and_byteMask]

theorem nop : Statement .nop := by
  unfold Statement
  decide

theorem srst : Statement .srst := by
  unfold Statement
  decide

theorem iclr : Statement .iclr := by
  unfold Statement
  decide

theorem ipush (imm8 : Byte) : Statement (.ipush imm8) :=
  (masked_b8 0x11 imm8).trans
    (show mkWord 0x11 0 0 = 0x11000000#32 by decide)

theorem oclr : Statement .oclr := by
  unfold Statement
  decide

theorem otoi : Statement .otoi := by
  unfold Statement
  decide

theorem setf (imm8 : Byte) : Statement (.setf imm8) :=
  (masked_b8 0x20 imm8).trans
    (show mkWord 0x20 0 0 = 0x20000000#32 by decide)

theorem setseq (imm16 : Half) : Statement (.setseq imm16) :=
  (masked_b16 0x21 imm16).trans
    (show mkWord 0x21 0 0 = 0x21000000#32 by decide)

theorem setcmd (imm8 : Byte) : Statement (.setcmd imm8) :=
  (masked_b8 0x22 imm8).trans
    (show mkWord 0x22 0 0 = 0x22000000#32 by decide)

theorem setl2f (imm8 : Byte) : Statement (.setl2f imm8) :=
  (masked_b8 0x23 imm8).trans
    (show mkWord 0x23 0 0 = 0x23000000#32 by decide)

theorem setkey (idx : BitVec 4) (imm8 : Byte) : Statement (.setkey idx imm8) :=
  (masked_ab8 0x24 idx imm8).trans
    (show mkWord 0x24 0 0 = 0x24000000#32 by decide)

theorem fclr : Statement .fclr := by
  unfold Statement
  decide

theorem fadd (imm8 : Byte) : Statement (.fadd imm8) :=
  (masked_b8 0x31 imm8).trans
    (show mkWord 0x31 0 0 = 0x31000000#32 by decide)

theorem flook (imm8 : Byte) : Statement (.flook imm8) :=
  (masked_b8 0x32 imm8).trans
    (show mkWord 0x32 0 0 = 0x32000000#32 by decide)

theorem crc16 : Statement .crc16 := by
  unfold Statement
  decide

theorem l1pack : Statement .l1pack := by
  unfold Statement
  decide

theorem l1parse : Statement .l1parse := by
  unfold Statement
  decide

theorem l2pack : Statement .l2pack := by
  unfold Statement
  decide

theorem l2parse : Statement .l2parse := by
  unfold Statement
  decide

theorem aesenc : Statement .aesenc := by
  unfold Statement
  decide

theorem aesdec : Statement .aesdec := by
  unfold Statement
  decide

end Sys2Proof.Laws.TableRow
end

