-- ==== Sys2Proof/Tests/Slice0.lean ====
section
/-! SUPPORT. The model's own tests. Expected values come from spec/95_test_vectors.md (T<n>), from the worked examples
of the rules (R<n>) and from the encodings of 30_encoding.md. Values marked ARC hold for the default table only, AES
values rest on the spec's general knowledge. -/

set_option Elab.async false

namespace Sys2Proof.Tests

open Sys2Proof Sys2Proof.Machine

/-- The next state of an outcome. -/
def next? (o : Host.Outcome State Fault Refusal) : Option State :=
  match o with
  | .next t => some t
  | _ => none

/-- STATUS and ERRLOG of the state after a command. -/
def statusAfter (i : Instr) (s : State) : Option (BitVec 16 × BitVec 16) :=
  (next? (exec i s)).map fun t => (t.statusWord, t.errlogWord)

/-- The reset state with the given bytes in IBUF. -/
def withIbuf (d : List Byte) : State := State.reset.setIbuf d

/-! ## Well-formed lines and words: one ill-formed term for each check -/

theorem test_wf_refuses_unknown_mnemonic : AsmLine.wf ⟨"JUMP", []⟩ = false := by decide +kernel
theorem test_wf_refuses_lower_case : AsmLine.wf ⟨"crc16", []⟩ = false := by decide +kernel
theorem test_wf_refuses_operand_of_z : AsmLine.wf ⟨"CRC16", [1]⟩ = false := by decide +kernel
/-- R116's own example. -/
theorem test_wf_refuses_ipush_256 : AsmLine.wf ⟨"IPUSH", [256]⟩ = false := by decide +kernel
theorem test_wf_refuses_two_bytes : AsmLine.wf ⟨"IPUSH", [1, 2]⟩ = false := by decide +kernel
theorem test_wf_refuses_seq_65536 : AsmLine.wf ⟨"SETSEQ", [65536]⟩ = false := by decide +kernel
theorem test_wf_refuses_seq_without_operand : AsmLine.wf ⟨"SETSEQ", []⟩ = false := by decide +kernel
theorem test_wf_refuses_key_index_16 : AsmLine.wf ⟨"SETKEY", [16, 0]⟩ = false := by decide +kernel
theorem test_wf_refuses_key_byte_256 : AsmLine.wf ⟨"SETKEY", [15, 256]⟩ = false := by decide +kernel
theorem test_wf_refuses_key_without_byte : AsmLine.wf ⟨"SETKEY", [15]⟩ = false := by decide +kernel
theorem test_wf_refuses_pushed_256 : AsmLine.wf ⟨"IPUSHS", [1, 256]⟩ = false := by decide +kernel
theorem test_wf_refuses_15_key_bytes : AsmLine.wf ⟨"SETKEYS", List.replicate 15 0⟩ = false := by decide +kernel
theorem test_wf_refuses_large_key_bytes : AsmLine.wf ⟨"SETKEYS", List.replicate 16 256⟩ = false := by decide +kernel
theorem test_wf_refuses_field_without_key : AsmLine.wf ⟨"FIELD", []⟩ = false := by decide +kernel
theorem test_wf_refuses_field_key_256 : AsmLine.wf ⟨"FIELD", [256, 1]⟩ = false := by decide +kernel
theorem test_wf_refuses_field_byte_256 : AsmLine.wf ⟨"FIELD", [1, 256]⟩ = false := by decide +kernel
/-- R117: FIELD is ICLR, the pushes, FADD. -/
theorem test_assemble_field :
    assemble ⟨"FIELD", [10, 0x27]⟩ = some [0x10000000, 0x11000027, 0x3100000A] := by decide +kernel
/-- R117: ILOAD of nothing is ICLR alone. -/
theorem test_assemble_iload_empty : assemble ⟨"ILOAD", []⟩ = some [0x10000000] := by decide +kernel
/-- P2: the words of SETKEYS. -/
theorem test_assemble_setkeys : (assemble ⟨"SETKEYS", [0x30, 0x31, 0x32, 0x33, 0x34, 0x35, 0x36, 0x37, 0x38, 0x39,
    0x61, 0x62, 0x63, 0x64, 0x65, 0x66]⟩).map (fun ws => (ws.length, ws[10]?, ws[15]?)) =
    some (16, some 0x240A0061, some 0x240F0066) := by decide +kernel
theorem test_assemble_refuses_ill_formed : assemble ⟨"IPUSH", [256]⟩ = none := by decide +kernel

/-! ## Decoding: the words of T10, and bit patterns written out from R101 to R104 -/

theorem test_decode_nop : decode 0x00000000 = .ok .nop := by decide +kernel
theorem test_decode_srst : decode 0x01000000 = .ok .srst := by decide +kernel
theorem test_decode_iclr : decode 0x10000000 = .ok .iclr := by decide +kernel
theorem test_decode_ipush : decode 0x110000AB = .ok (.ipush 0xAB) := by decide +kernel
theorem test_decode_oclr : decode 0x12000000 = .ok .oclr := by decide +kernel
theorem test_decode_otoi : decode 0x13000000 = .ok .otoi := by decide +kernel
theorem test_decode_setf : decode 0x20000008 = .ok (.setf 0x08) := by decide +kernel
theorem test_decode_setseq : decode 0x21000102 = .ok (.setseq 0x0102) := by decide +kernel
theorem test_decode_setcmd : decode 0x22000091 = .ok (.setcmd 0x91) := by decide +kernel
theorem test_decode_setl2f : decode 0x23000000 = .ok (.setl2f 0) := by decide +kernel
theorem test_decode_setkey : decode 0x240F0066 = .ok (.setkey 15 0x66) := by decide +kernel
theorem test_decode_fclr : decode 0x30000000 = .ok .fclr := by decide +kernel
theorem test_decode_fadd : decode 0x3100000A = .ok (.fadd 10) := by decide +kernel
theorem test_decode_flook : decode 0x320000D2 = .ok (.flook 0xD2) := by decide +kernel
theorem test_decode_crc16 : decode 0x40000000 = .ok .crc16 := by decide +kernel
theorem test_decode_l1pack : decode 0x50000000 = .ok .l1pack := by decide +kernel
theorem test_decode_l1parse : decode 0x51000000 = .ok .l1parse := by decide +kernel
theorem test_decode_l2pack : decode 0x60000000 = .ok .l2pack := by decide +kernel
theorem test_decode_l2parse : decode 0x61000000 = .ok .l2parse := by decide +kernel
theorem test_decode_aesenc : decode 0x70000000 = .ok .aesenc := by decide +kernel
theorem test_decode_aesdec : decode 0x71000000 = .ok .aesdec := by decide +kernel
/-- One word of each format bit by bit: op, A, B. -/
theorem test_decode_bits :
    decode 0b01000000_00000000_0000000000000000 = .ok .crc16 ∧
    decode 0b00010001_00000000_0000000010101011 = .ok (.ipush 0xAB) ∧
    decode 0b00100001_00000000_0000000100000010 = .ok (.setseq 0x0102) ∧
    decode 0b00100100_00001001_0000000000111001 = .ok (.setkey 9 0x39) := by decide +kernel
/-- T12: the bounds of the immediates. -/
theorem test_decode_bounds : decode 0x2100FFFF = .ok (.setseq 0xFFFF) ∧ decode 0x240F00FF = .ok (.setkey 15 0xFF) ∧
    decode 0x110000FF = .ok (.ipush 0xFF) := by decide +kernel
/-- R114, T11: unassigned opcodes. -/
theorem test_decode_unassigned : ([0x02000000, 0xFF000000, 0x14000000, 0x72000000].map decode).all
    (· == .error .unassignedOpcode) = true := by decide +kernel
/-- R114, T11, T12: a must-be-zero bit is set. -/
theorem test_decode_must_be_zero : ([0x40000001, 0x11000100, 0x11010000, 0x24100000, 0x21010000, 0x00000001,
    0x7000FFFF, 0x241000FF].map decode).all (· == .error .mustBeZeroBitSet) = true := by decide +kernel
theorem test_table_word : decodeTableWord 32 0x24050035 = some (.setkey 5 0x35) ∧
    decodeTableWord 32 0x24100000 = none := by decide +kernel

/-! ## Support commands -/

/-- R140: STATUS 0x0012 becomes 0x0010 (T22). -/
theorem test_nop : statusAfter .nop { State.reset with err := some .checksum, isPartial := true, errlog := 2 } =
    some (0x0010, 0x0004) := by decide +kernel
/-- R141, T59: SRST forgets log, key and REMAIN. -/
theorem test_srst : (next? (exec .srst { State.reset with errlog := 0x94, remain := 8, kvalid := 0xFFFF, l1seq := 5 })).map
    (fun t => (t.errlogWord, t.remain, t.kvalid, t.l1seq)) = some (0, 0, 0, 0) := by decide +kernel
theorem test_iclr : (next? (exec .iclr (withIbuf [1, 2, 3, 4, 5]))).map (·.ilen) = some 0 := by decide +kernel
/-- R143's example. -/
theorem test_ipush : (next? (exec (.ipush 0x06) (withIbuf [0xAB, 0x00]))).map (·.ibuf) = some [0xAB, 0x00, 0x06] := by
  decide +kernel
/-- T14: the seventeenth IPUSH of a 16-byte buffer. -/
theorem test_ipush_full : statusAfter (.ipush 1)
    { withIbuf (List.replicate 16 0) with params := { Params.default with ibufCap := .bounded 16 } } =
    some (0x0007, 0x0080) := by decide +kernel
theorem test_oclr : (next? (exec .oclr (State.reset.setObuf [1, 2]))).map (·.olen) = some 0 := by decide +kernel
/-- T15. -/
theorem test_otoi : (next? (exec .otoi ((withIbuf [0x27]).setObuf [0x91, 0x00, 0x0A, 0x01, 0x00, 0x27]))).map
    (fun t => (t.ibuf, t.obuf)) = some ([0x91, 0x00, 0x0A, 0x01, 0x00, 0x27], [0x91, 0x00, 0x0A, 0x01, 0x00, 0x27]) := by
  decide +kernel
/-- T16. -/
theorem test_setf : (next? (exec (.setf 0x48) State.reset)).map (fun t => (t.l1flags, t.l2flags)) =
    some (0x48, 0) := by decide +kernel
theorem test_setseq : (next? (exec (.setseq 0xFFFF) State.reset)).map (·.l1seq) = some 0xFFFF := by decide +kernel
theorem test_setcmd : (next? (exec (.setcmd 0x86) State.reset)).map (·.l2cmd) = some 0x86 := by decide +kernel
theorem test_setl2f : (next? (exec (.setl2f 0x01) State.reset)).map (fun t => (t.l1flags, t.l2flags)) =
    some (0, 0x01) := by decide +kernel
/-- T17: KVALID after SETKEY 3, and a rewrite keeps it. -/
theorem test_setkey : (next? (exec (.setkey 3 0xAA) State.reset)).map (fun t => (t.kvalid, t.key[3], t.key[2])) =
    some (0x0008, 0xAA, 0) := by decide +kernel
theorem test_setkey_second : (next? (exec (.setkey 0 0x01) (State.reset.setKeyByte 3 0xBB))).map
    (fun t => (t.kvalid, t.key[0], t.key[3])) = some (0x0009, 0x01, 0xBB) := by decide +kernel
theorem test_fclr : (next? (exec .fclr (State.reset.setFtab [⟨1, []⟩, ⟨1, [2]⟩]))).map
    (fun t => (t.fcnt, t.statusWord)) = some (0, 0) := by decide +kernel
/-- T18: the second FADD of one key. -/
theorem test_fadd : (next? (exec (.fadd 10) ((withIbuf [0x27]).setFtab [⟨0x0A, [0x27]⟩]))).map
    (fun t => (t.ftab, t.statusWord)) = some ([⟨0x0A, [0x27]⟩, ⟨0x0A, [0x27]⟩], 0x0020) := by decide +kernel
/-- T20: 16 + 16 > 20. -/
theorem test_fadd_value_store_full : statusAfter (.fadd 2)
    { (withIbuf (List.replicate 16 0)).setFtab [⟨1, List.replicate 16 0⟩] with
      params := { Params.default with ftabCap := .bounded 2, fvalCap := .bounded 20 } } =
    some (0x0007, 0x0080) := by decide +kernel
/-- T21. -/
theorem test_flook : (next? (exec (.flook 6) (State.reset.setFtab [⟨5, [0xAA]⟩, ⟨5, []⟩, ⟨6, [0xBB, 0xCC]⟩]))).map
    (fun t => (t.obuf, t.statusWord)) = some ([0xBB, 0xCC], 0x0020) := by decide +kernel
/-- T21: a duplicated key, then an absent one. -/
theorem test_flook_refused : statusAfter (.flook 5) (State.reset.setFtab [⟨5, [0xAA]⟩, ⟨5, []⟩, ⟨6, [0xBB]⟩]) =
      some (0x0029, 0x0200) ∧
    statusAfter (.flook 7) (State.reset.setFtab [⟨5, [0xAA]⟩, ⟨5, []⟩, ⟨6, [0xBB]⟩]) = some (0x0028, 0x0100) := by
  decide +kernel

/-! ## CRC unit (ARC) -/

/-- R184: the printed table is `table(0xA001)`. -/
theorem test_default_table : (List.finRange 256).all (fun i => defaultCrcTable.get i == crcEntry 0xA001 i) = true := by
  decide +kernel
/-- T23: "123456789". -/
theorem test_crc16 : (next? (exec .crc16 (withIbuf [0x31, 0x32, 0x33, 0x34, 0x35, 0x36, 0x37, 0x38, 0x39]))).map
    (·.crcr) = some 0xBB3D := by decide +kernel
/-- T23: the same bytes under `table(0x8408)`. -/
theorem test_crc16_kermit : (next? (exec .crc16 { withIbuf [0x31, 0x32, 0x33, 0x34, 0x35, 0x36, 0x37, 0x38, 0x39] with
    params := { Params.default with crcTable := crcTableOf 0x8408 } })).map (·.crcr) = some 0x2189 := by decide +kernel

/-! ## L1 unit -/

/-- The frame of T25 (ARC). -/
def frameT25 : List Byte := [0xAB, 0x00, 0x06, 0x00, 0x0E, 0x83, 0x01, 0x00, 0x91, 0x00, 0x0A, 0x01, 0x00, 0x27]

/-- T25 (ARC). -/
theorem test_l1pack : (next? (exec .l1pack ((withIbuf [0x91, 0x00, 0x0A, 0x01, 0x00, 0x27]).setL1Seq 1))).map
    (fun t => (t.obuf, t.l1len, t.l1crc)) = some (frameT25, 0x0006, 0x830E) := by decide +kernel
/-- T26: an acknowledgement, for every table. -/
theorem test_l1pack_ack : (next? (exec .l1pack ((State.reset.setL1Flags 0xFF).setL1Seq 0xFFFE))).map (·.obuf) =
    some [0xAB, 0xFF, 0x00, 0x00, 0x00, 0x00, 0xFE, 0xFF] := by decide +kernel
/-- T37 (ARC): a frame with 8 bytes after it. -/
theorem test_l1parse : (next? (exec .l1parse (withIbuf (frameT25 ++ [0xAB, 0x48, 0, 0, 0, 0, 1, 0])))).map
    (fun t => ((t.obuf, t.l1seq, t.l1len), (t.l1crc, t.remain, t.xtra, t.statusWord))) =
    some (([0x91, 0x00, 0x0A, 0x01, 0x00, 0x27], 1, 6), (0x830E, 0, 8, 0)) := by decide +kernel
/-- T31 (rows 5 and 10), T34, T35. -/
theorem test_l1parse_cuts : (next? (exec .l1parse (withIbuf (frameT25.take 5)))).map
      (fun t => (t.obuf, t.remain, t.statusWord, t.l1len)) = some ([], 3, 0x0010, 0) ∧
    (next? (exec .l1parse (withIbuf (frameT25.take 10)))).map
      (fun t => (t.obuf, t.remain, t.statusWord, t.l1len)) = some ([0x91, 0x00], 4, 0x0010, 6) ∧
    statusAfter .l1parse (withIbuf (frameT25.set 9 0x01)) = some (0x0002, 0x0004) ∧
    statusAfter .l1parse (withIbuf (frameT25.set 0 0xAA)) = some (0x0001, 0x0002) := by decide +kernel

/-! ## L2 unit -/

/-- T44. -/
theorem test_l2pack : (next? (exec .l2pack (((State.reset.setL2Cmd 0x02).setL2Flags 0xFF).setFtab
    [⟨0xD2, [1, 2]⟩, ⟨0, []⟩]))).map (·.obuf) =
    some [0x02, 0xFF, 0xD2, 0x02, 0x00, 0x01, 0x02, 0x00, 0x00, 0x00] := by decide +kernel
/-- T48. -/
theorem test_l2parse : (next? (exec .l2parse (withIbuf [1, 2, 5, 1, 0, 0xAA, 5, 0, 0, 6, 2, 0, 0xBB, 0xCC]))).map
    (fun t => (t.l2cmd, t.l2flags, t.ftab, t.statusWord)) =
    some (1, 2, [⟨5, [0xAA]⟩, ⟨5, []⟩, ⟨6, [0xBB, 0xCC]⟩], 0x0020) := by decide +kernel
/-- T46. -/
theorem test_l2parse_truncated : ([[], [0x86], [0x86, 0, 0xD2], [0x86, 0, 0xD2, 0x10], [0x86, 0, 0xD2, 0x10, 0],
    [0x91, 0, 0x0A, 1, 0, 0x27, 0x55]].map fun d => statusAfter .l2parse (withIbuf d)).all
    (· == some (0x0003, 0x0008)) = true := by decide +kernel

/-! ## AES unit -/

/-- The key `00 01 ... 0F`. -/
def keyT50 : Vector Byte 16 := Vector.ofFn fun i => BitVec.ofNat 8 i.val

/-- A state with all key bytes written and the given input. -/
def keyed (key : Vector Byte 16) (d : List Byte) : State := { withIbuf d with key := key, kvalid := 0xFFFF }

/-- T50 (FIPS 197 Appendix C.1, R277). -/
theorem test_aesenc : (next? (exec .aesenc (keyed keyT50 [0x00, 0x11, 0x22, 0x33, 0x44, 0x55, 0x66, 0x77, 0x88, 0x99,
    0xAA, 0xBB, 0xCC, 0xDD, 0xEE, 0xFF]))).map (·.obuf) = some [0x69, 0xC4, 0xE0, 0xD8, 0x6A, 0x7B, 0x04, 0x30, 0xD8,
    0xCD, 0xB7, 0x80, 0x70, 0xB4, 0xC5, 0x5A] := by decide +kernel
/-- T57: no key and 15 bytes together; all key bytes and 17 bytes. -/
theorem test_aesenc_refused : statusAfter .aesenc (withIbuf (List.replicate 15 0)) = some (0x0005, 0x0020) ∧
    statusAfter .aesenc (keyed keyT50 (List.replicate 17 0)) = some (0x0004, 0x0010) := by decide +kernel
/-- P3: the state characteristic. -/
theorem test_aesdec : (next? (exec .aesdec (keyed #v[0x30, 0x31, 0x32, 0x33, 0x34, 0x35, 0x36, 0x37, 0x38, 0x39, 0x61,
    0x62, 0x63, 0x64, 0x65, 0x66] [0x3F, 0x05, 0xF4, 0x98, 0xEC, 0xEB, 0x60, 0xBE, 0x46, 0x1C, 0x9E, 0x5C, 0x3A, 0xB7,
    0x85, 0x43]))).map (·.obuf) = some [0x01, 0x78, 0x56, 0x34, 0x12, 0, 0, 0, 0, 0, 0, 0, 0, 0, 0, 0] := by
  decide +kernel
/-- T52: the all-zero key and block. -/
theorem test_aesdec_zero : (next? (exec .aesdec (keyed (Vector.replicate 16 0) (List.replicate 16 0)))).map (·.obuf) =
    some [0x14, 0x0F, 0x0F, 0x10, 0x11, 0xB5, 0x22, 0x3D, 0x79, 0x58, 0x77, 0x17, 0xFF, 0xD9, 0xEC, 0x3A] := by
  decide +kernel
/-- R263's check values. -/
theorem test_gmul : gmul 0x57 0x13 = 0xFE ∧ gmul 0x57 0x83 = 0xC1 ∧ xtime 0xAE = 0x47 := by decide +kernel
/-- R276: round 1 of FIPS 197 Appendix B. -/
theorem test_round1 : (shiftRows (subBytes ⟨⟨0x19, 0x3D, 0xE3, 0xBE⟩, ⟨0xA0, 0xF4, 0xE2, 0x2B⟩, ⟨0x9A, 0xC6, 0x8D, 0x2A⟩,
      ⟨0xE9, 0xF8, 0x48, 0x08⟩⟩)).toBytes = [0xD4, 0xBF, 0x5D, 0x30, 0xE0, 0xB4, 0x52, 0xAE, 0xB8, 0x41, 0x11, 0xF1,
      0x1E, 0x27, 0x98, 0xE5] ∧ mixColumn ⟨0xD4, 0xBF, 0x5D, 0x30⟩ = ⟨0x04, 0x66, 0x81, 0xE5⟩ := by decide +kernel

/-! ## Steps and reads -/

/-- P4: an illegal word. -/
theorem test_step_illegal : (next? (step (State.reset.withFetchWord 32 0x40000001))).map
    (fun t => (t.statusWord, t.errlogWord, t.inputs)) = some (0x000A, 0x0400, []) := by decide +kernel
theorem test_step_ipush : (next? (step (State.reset.withFetchWord 32 0x110000AB))).map
    (fun t => (t.ibuf, t.inputs)) = some ([0xAB], []) := by decide +kernel
theorem test_step_idle : (next? (step (withIbuf [1]))).map (fun t => (t.ibuf, t.err, t.inputs)) =
    some ([1], none, []) := by decide +kernel
theorem test_step_power_on : (next? (step ((withIbuf [1]).present .powerOn))).map (fun t => (t.ibuf, t.inputs)) =
    some ([], []) := by decide +kernel
/-- R31: register numbers, and reads beyond the end. -/
theorem test_host_read : (withIbuf [0xAB, 0xCD]).hostRead (.reg 2) = 2 ∧
    (withIbuf [0xAB, 0xCD]).hostRead (.ibufByte 1) = 0xCD ∧ (withIbuf [0xAB, 0xCD]).hostRead (.ibufByte 2) = 0 ∧
    State.reset.hostRead (.reg 15) = 0 ∧ (State.reset.setL1Seq 0x0102).hostRead (.reg 6) = 0x0102 := by decide +kernel

/-! ## Witnesses: for each obligation with hypotheses, inputs that meet all of them, at the boundary of each clause -/

/-- A state whose four capacities are `c`. -/
def capped (c : Nat) (s : State) : State :=
  { s with params := { s.params with ibufCap := .bounded c, obufCap := .bounded c, ftabCap := .bounded c, fvalCap := .bounded c } }

/-- A state with every capacity unbounded. -/
def uncapped (s : State) : State :=
  { s with params := { s.params with ibufCap := .unbounded, obufCap := .unbounded, ftabCap := .unbounded, fvalCap := .unbounded } }

/-- A command's outcome in a state, known to be a next state. -/
def after (i : Instr) (s : State) : State := (next? (exec i s)).getD s

theorem ilen_zeros (n : Nat) : (withIbuf (List.replicate n 0)).ilen = n := List.length_replicate

theorem exec_after (i : Instr) (s : State) : exec i s = .next (after i s) := by
  rcases completes_or_stops i s with ⟨s', h⟩ | ⟨e, h⟩ <;> rw [after, h.exec_eq] <;> rfl

theorem raises_of_err {i : Instr} {s : State} {e : Err} (h : (after i s).err = some e) : Raises i s e := by
  rcases exec_cases (exec_after i s) with ⟨s', hc, ht⟩ | ⟨e', hs, ht⟩
  · rw [ht] at h
    cases h
  · rw [ht] at h
    cases h
    exact raises_iff.mpr hs.exec_eq

theorem witness_DecodedWordIsItsEncoding : decode 0x2100FFFF = .ok (.setseq 0xFFFF) := by decide +kernel
theorem witness_WordIsCommandWhenMaskMatches : decode 0x240F00FF = .ok (.setkey 15 0xFF) ∧
    ((0x24000000, 0xFFF0FF00) : Word × Word) ∈ opcodeRows ∧ (0x240F00FF : Word) &&& 0xFFF0FF00 = 0x24000000 := by
  decide +kernel
/-- A must-be-zero bit, and an opcode next to an assigned one. -/
theorem witness_IllegalWordRaises : (∀ row ∈ opcodeRows, (0x40000001 : Word) &&& row.2 ≠ row.1) ∧
    (∀ row ∈ opcodeRows, (0x02000000 : Word) &&& row.2 ≠ row.1) ∧
    (State.reset.present (.command 0x40000001)).inputs = .command 0x40000001 :: [] :=
  ⟨fun row h => of_decide_eq_true (List.all_eq_true.mp
      (by decide +kernel : opcodeRows.all (fun row => decide ((0x40000001 : Word) &&& row.2 ≠ row.1)) = true) row h),
    fun row h => of_decide_eq_true (List.all_eq_true.mp
      (by decide +kernel : opcodeRows.all (fun row => decide ((0x02000000 : Word) &&& row.2 ≠ row.1)) = true) row h), rfl⟩
/-- A line just out of bounds, and a FIELD line whose record just fits. -/
theorem witness_FieldLineAppendsRecord : AsmLine.wf ⟨"SETSEQ", [65536]⟩ = false ∧ [0x27#8].length ≤ 65535 ∧
    Fits (capped 1 State.reset).params.ibufCap [0x27#8].length ∧
    Fits (capped 1 State.reset).params.ftabCap ((capped 1 State.reset).fcnt + 1) ∧
    Fits (capped 1 State.reset).params.fvalCap (valueBytes (capped 1 State.reset).ftab + [0x27#8].length) := by
  simp only [← exceeds_eq_false]
  decide +kernel
theorem witness_StepRunsDecodedCommand : (State.reset.present (.command 0x110000AB)).inputs = .command 0x110000AB :: [] ∧
    decode 0x110000AB = .ok (.ipush 0xAB) := by decide +kernel
theorem witness_StepIdlesOrPowersOn : (withIbuf [1]).inputs = [] ∧
    ((withIbuf [1]).present .powerOn).inputs = .powerOn :: [] := by decide +kernel
theorem witness_NopClearsErrOnly : opField 0x00000001 = 0x00 ∧ (0x00000001 : Word) ≠ 0x00000000 := by decide
theorem witness_SrstResetsEveryItem : Instr.nop ≠ .srst ∧
    exec .nop (State.reset.raiseError .illegal) = .next (after .nop (State.reset.raiseError .illegal)) ∧
    (State.reset.raiseError .illegal).errlogWord.getLsbD 10 = true ∧
    (keyed keyT50 []).kvalid.getLsbD 15 = true := ⟨by decide, exec_after .., by decide +kernel⟩
/-- The smallest index that fits no operand. -/
theorem witness_SetkeyWritesOneKeyByte : opField 0x24100000 = 0x24 ∧
    16 ≤ ((0x24100000 : Word).extractLsb' 16 8).toNat := by decide
theorem witness_DupMeansRepeatedKey :
    exec (.fadd 1) (State.reset.setFtab [⟨1, []⟩]) = .next (after (.fadd 1) (State.reset.setFtab [⟨1, []⟩])) ∧
    (after (.fadd 1) (State.reset.setFtab [⟨1, []⟩])).statusWord.getLsbD 5 ≠
      (State.reset.setFtab [⟨1, []⟩]).statusWord.getLsbD 5 := ⟨exec_after .., by decide +kernel⟩
theorem witness_IpushAppendsOrRaises : Fits (capped 2 (withIbuf [1])).params.ibufCap ((capped 2 (withIbuf [1])).ilen + 1) ∧
    ¬ Fits (capped 1 (withIbuf [1])).params.ibufCap ((capped 1 (withIbuf [1])).ilen + 1) := by
  simp only [← exceeds_eq_false]
  decide +kernel
theorem witness_OtoiCopiesOrRaises :
    Fits (capped 2 (State.reset.setObuf [1, 2])).params.ibufCap (capped 2 (State.reset.setObuf [1, 2])).olen ∧
    (¬ Fits (capped 1 (State.reset.setObuf [1, 2])).params.ibufCap (capped 1 (State.reset.setObuf [1, 2])).olen) ∧
    (capped 2 (State.reset.setObuf [1, 2])).wf = true ∧
    ∀ n, Fits (capped 2 (State.reset.setObuf [1, 2])).params.obufCap n →
      Fits (capped 2 (State.reset.setObuf [1, 2])).params.ibufCap n := by
  refine and_assoc.mp (and_assoc.mp ⟨?_, fun _ => id⟩)
  simp only [← exceeds_eq_false]
  decide +kernel
/-- Lengths 65535 and 65536; a full table, a full value store, and room for exactly one more. -/
theorem witness_FaddAppendsOrRaises : 65535 < (withIbuf (List.replicate 65536 0)).ilen ∧
    (withIbuf (List.replicate 65535 0)).ilen ≤ 65535 ∧
    (¬ Fits (capped 1 (State.reset.setFtab [⟨1, []⟩])).params.ftabCap ((capped 1 (State.reset.setFtab [⟨1, []⟩])).fcnt + 1)) ∧
    (¬ Fits (capped 2 ((withIbuf [7]).setFtab [⟨1, [8, 9]⟩])).params.fvalCap
      (valueBytes (capped 2 ((withIbuf [7]).setFtab [⟨1, [8, 9]⟩])).ftab + (capped 2 ((withIbuf [7]).setFtab [⟨1, [8, 9]⟩])).ilen)) ∧
    Fits (capped 3 ((withIbuf [7]).setFtab [⟨1, [8, 9]⟩])).params.ftabCap ((capped 3 ((withIbuf [7]).setFtab [⟨1, [8, 9]⟩])).fcnt + 1) ∧
    Fits (capped 3 ((withIbuf [7]).setFtab [⟨1, [8, 9]⟩])).params.fvalCap
      (valueBytes (capped 3 ((withIbuf [7]).setFtab [⟨1, [8, 9]⟩])).ftab + (capped 3 ((withIbuf [7]).setFtab [⟨1, [8, 9]⟩])).ilen) := by
  refine ⟨by rw [ilen_zeros]; decide, by rw [ilen_zeros], ?_⟩
  simp only [← exceeds_eq_false]
  decide +kernel
/-- The table of T21 with an absent, a duplicated and a single key. -/
theorem witness_FlookFindsOrRaises :
    (∀ r ∈ ([⟨5, [0xAA]⟩, ⟨5, []⟩, ⟨6, [0xBB, 0xCC]⟩] : List Record), r.key ≠ 7) ∧
    ([⟨5, [0xAA]⟩, ⟨5, []⟩, ⟨6, [0xBB, 0xCC]⟩] : List Record)[0]? = some ⟨5, [0xAA]⟩ ∧
    ([⟨5, [0xAA]⟩, ⟨5, []⟩, ⟨6, [0xBB, 0xCC]⟩] : List Record)[1]? = some ⟨5, []⟩ ∧
    ([⟨5, [0xAA]⟩, ⟨5, []⟩, ⟨6, [0xBB, 0xCC]⟩] : List Record)[2]? = some ⟨6, [0xBB, 0xCC]⟩ ∧
    recordsWith 6 [⟨5, [0xAA]⟩, ⟨5, []⟩, ⟨6, [0xBB, 0xCC]⟩] = [⟨6, [0xBB, 0xCC]⟩] ∧
    Fits (capped 2 State.reset).params.obufCap [0xBB#8, 0xCC].length ∧
    ¬ Fits (capped 1 State.reset).params.obufCap [0xBB#8, 0xCC].length := by
  simp only [← exceeds_eq_false]
  decide +kernel
theorem witness_L1packBuildsFrameOrRaises : 65535 < (withIbuf (List.replicate 65536 0)).ilen ∧
    (withIbuf (List.replicate 65535 0)).ilen ≤ 65535 ∧
    (¬ Fits (capped 8 (withIbuf [1])).params.obufCap (8 + (capped 8 (withIbuf [1])).ilen)) ∧
    Fits (capped 9 (withIbuf [1])).params.obufCap (8 + (capped 9 (withIbuf [1])).ilen) := by
  refine ⟨by rw [ilen_zeros]; decide, by rw [ilen_zeros], ?_⟩
  simp only [← exceeds_eq_false]
  decide +kernel
/-- Wrong start byte; no byte and 7 bytes; 8 and 13 of 14 bytes; 8 bytes that are the whole frame; the frame of T25; the
same with another CRC. -/
theorem witness_L1parseByContents :
    (1 ≤ (withIbuf [0xAA]).ilen ∧ byteAt (withIbuf [0xAA]).ibuf 0 ≠ 0xAB) ∧ (withIbuf []).ilen < 8 ∧
    ((withIbuf (frameT25.take 7)).ilen < 8 ∧ byteAt (withIbuf (frameT25.take 7)).ibuf 0 = 0xAB) ∧
    ((withIbuf (frameT25.take 8)).ilen = 8 ∧ byteAt (withIbuf (frameT25.take 8)).ibuf 0 = 0xAB ∧
      (withIbuf (frameT25.take 8)).ilen - 8 < u16At (withIbuf (frameT25.take 8)).ibuf 2) ∧
    ((withIbuf [0xAB, 0xFF, 0, 0, 0, 0, 0xFE, 0xFF]).ilen = 8 ∧
      u16At (withIbuf [0xAB, 0xFF, 0, 0, 0, 0, 0xFE, 0xFF]).ibuf 2 ≤
        (withIbuf [0xAB, 0xFF, 0, 0, 0, 0, 0xFE, 0xFF]).ilen - 8 ∧
      (crc16 State.reset.params.crcTable []).toNat = u16At [0xAB, 0xFF, 0, 0, 0, 0, 0xFE, 0xFF] 4) ∧
    (8 ≤ (withIbuf (frameT25.take 13)).ilen ∧ byteAt (withIbuf (frameT25.take 13)).ibuf 0 = 0xAB ∧
      (withIbuf (frameT25.take 13)).ilen - 8 < u16At (withIbuf (frameT25.take 13)).ibuf 2) ∧
    (8 ≤ (withIbuf frameT25).ilen ∧ u16At (withIbuf frameT25).ibuf 2 ≤ (withIbuf frameT25).ilen - 8 ∧
      (crc16 State.reset.params.crcTable ((frameT25.drop 8).take 6)).toNat = u16At frameT25 4) ∧
    (crc16 State.reset.params.crcTable (((frameT25.set 4 0).drop 8).take 6)).toNat ≠ u16At (frameT25.set 4 0) 4 ∧
    (Fits (capped 6 State.reset).params.obufCap 6 ∧ ¬ Fits (capped 5 State.reset).params.obufCap 6) := by
  simp only [← exceeds_eq_false]
  decide +kernel
theorem witness_L2packBuildsMessageOrRaises : ShortValues [⟨1, [2]⟩] ∧
    Fits (capped 6 State.reset).params.obufCap (2 + (([⟨1, [2]⟩] : List Record).map fun r => 3 + r.value.length).sum) ∧
    ¬ Fits (capped 5 State.reset).params.obufCap (2 + (([⟨1, [2]⟩] : List Record).map fun r => 3 + r.value.length).sum) := by
  simp only [← exceeds_eq_false, ShortValues]
  decide +kernel
/-- The empty message, T48's message, and bytes that are none. -/
theorem witness_L2parseAcceptsMessagesOnly :
    (ShortValues [] ∧ [0#8, 0] = wireMessage 0 0 []) ∧
    (ShortValues [⟨5, [0xAA]⟩, ⟨5, []⟩] ∧ [1#8, 2, 5, 1, 0, 0xAA, 5, 0, 0] = wireMessage 1 2 [⟨5, [0xAA]⟩, ⟨5, []⟩]) ∧
    (¬ ∃ cmd flags recs, ShortValues recs ∧ (withIbuf [1]).ibuf = wireMessage cmd flags recs) ∧
    (Fits (capped 2 State.reset).params.ftabCap 2 ∧ ¬ Fits (capped 1 State.reset).params.ftabCap 2) := by
  refine ⟨by simp [ShortValues]; decide, by simp only [ShortValues]; decide +kernel, ?_, ?_⟩
  · rintro ⟨cmd, flags, recs, -, h⟩
    have := congrArg List.length h
    simp [withIbuf, wireMessage] at this
  · simp only [← exceeds_eq_false]
    decide +kernel
/-- No key; 15 bytes; 16 bytes in 15 and in 16 bytes of OBUF; no byte at all. -/
theorem witness_AesencEncryptsOrRaises : (withIbuf []).kvalid ≠ 0xFFFF ∧
    ((keyed keyT50 (List.replicate 15 0)).kvalid = 0xFFFF ∧ (keyed keyT50 (List.replicate 15 0)).ilen % 16 ≠ 0) ∧
    ((keyed keyT50 (List.replicate 16 0)).ilen % 16 = 0 ∧ (keyed keyT50 []).ilen % 16 = 0) ∧
    (Fits (capped 16 State.reset).params.obufCap 16 ∧ ¬ Fits (capped 15 State.reset).params.obufCap 16) := by
  simp only [← exceeds_eq_false]
  decide +kernel
theorem witness_AesdecDecryptsOrRaises : (State.reset.setKeyByte 3 1).kvalid ≠ 0xFFFF ∧
    ((keyed keyT50 (List.replicate 17 0)).kvalid = 0xFFFF ∧ (keyed keyT50 (List.replicate 17 0)).ilen % 16 ≠ 0) ∧
    ((keyed keyT50 (List.replicate 32 0)).ilen % 16 = 0 ∧ (keyed keyT50 []).ilen % 16 = 0) ∧
    (Fits (capped 32 State.reset).params.obufCap 32 ∧ ¬ Fits (capped 31 State.reset).params.obufCap 32) := by
  simp only [← exceeds_eq_false]
  decide +kernel
theorem witness_ErrorEntryIsPrecise : exec .aesenc (withIbuf []) = .next (after .aesenc (withIbuf [])) ∧
    (after .aesenc (withIbuf [])).err = some .key := ⟨exec_after .., by decide +kernel⟩
/-- Codes 1 and 10 stand at the ends of the log. -/
theorem witness_ErrlogIsSticky : (exec .l1parse (withIbuf [0]) = .next (after .l1parse (withIbuf [0])) ∧ Instr.l1parse ≠ .srst ∧
      (after .l1parse (withIbuf [0])).errlogWord.getLsbD 1 = true) ∧
    ((State.reset.raiseError .illegal).errlogWord.getLsbD 10 = true) ∧
    exec .srst (State.reset.raiseError .illegal) = .next (after .srst (State.reset.raiseError .illegal)) :=
  ⟨⟨exec_after .., by decide, by decide +kernel⟩, by decide +kernel, exec_after ..⟩
theorem witness_ErrorMatrixIsExact : MayRaise (.flook 5) .dupKey = true ∧
    (after (.flook 5) (State.reset.setFtab [⟨5, []⟩, ⟨5, []⟩])).err = some .dupKey ∧ MayRaise .nop .cap = false := by
  decide +kernel
/-- The invariant holds with any number of bytes in IBUF up to the default capacity. -/
theorem zeros_inv {n : Nat} (h : n ≤ 65543) : (withIbuf (List.replicate n 0)).Inv := by
  have hl : (withIbuf (List.replicate n 0)).ibuf.length = n := ilen_zeros n
  refine ⟨wf_iff.mpr ⟨?_, Fits_zero _, Fits_zero _, Fits_zero _, fun r hr => absurd hr List.not_mem_nil⟩, rfl, rfl⟩
  rw [hl]
  exact h
theorem zeros_full {n : Nat} (h : 65543 ≤ n) : (after (.ipush 1) (withIbuf (List.replicate n 0))).err = some .cap := by
  have hf : ¬ Fits (withIbuf (List.replicate n 0)).params.ibufCap ((withIbuf (List.replicate n 0)).ilen + 1) := by
    rw [ilen_zeros]
    exact Nat.not_le_of_lt (Nat.lt_succ_of_le h)
  rw [after, (Stops.ipush 1 hf).exec_eq]
  rfl
theorem witness_CapacityErrorsOnlyWhereStated : ((uncapped State.reset).params.ibufCap = .unbounded ∧
      (uncapped State.reset).params.obufCap = .unbounded ∧ (uncapped State.reset).params.ftabCap = .unbounded ∧
      (uncapped State.reset).params.fvalCap = .unbounded ∧
      exec (.ipush 1) (uncapped State.reset) = .next (after (.ipush 1) (uncapped State.reset))) ∧
    (∀ d, (withIbuf d).params.ibufCap = .bounded 65543 ∧ (withIbuf d).params.obufCap = .bounded 65543 ∧
      (withIbuf d).params.ftabCap = .bounded 21847 ∧ (withIbuf d).params.fvalCap = .bounded 65543) ∧
    ∃ n, (withIbuf (List.replicate n 0)).Inv ∧ (after (.ipush 1) (withIbuf (List.replicate n 0))).err = some .cap :=
  ⟨⟨rfl, rfl, rfl, rfl, exec_after ..⟩, fun _ => ⟨rfl, rfl, rfl, rfl⟩,
    65543, zeros_inv (Nat.le_refl _), zeros_full (Nat.le_refl _)⟩
/-- Each store and register is changed by one of its writers. -/
theorem witness_StoresHaveOnlyTheirWriters :
    (exec .iclr (withIbuf [1]) = .next (after .iclr (withIbuf [1])) ∧ (after .iclr (withIbuf [1])).ibuf ≠ (withIbuf [1]).ibuf) ∧
    (after .oclr (State.reset.setObuf [1])).obuf ≠ (State.reset.setObuf [1]).obuf ∧
    (after (.fadd 1) State.reset).ftab ≠ State.reset.ftab ∧
    (after (.setkey 15 1) State.reset).key.get 15 ≠ State.reset.key.get 15 ∧
    (after (.setkey 15 1) State.reset).kvalid.getLsbD 15 ≠ State.reset.kvalid.getLsbD 15 :=
  ⟨⟨exec_after .., by decide +kernel⟩, by decide +kernel⟩
theorem witness_RegistersHaveOnlyTheirWriters :
    (exec (.setf 1) State.reset = .next (after (.setf 1) State.reset) ∧ Instr.setf 1 ≠ .srst ∧
      (after (.setf 1) State.reset).l1flags ≠ State.reset.l1flags) ∧
    (after (.setseq 1) State.reset).l1seq ≠ State.reset.l1seq ∧
    (after .l1pack (withIbuf [1])).l1len ≠ State.reset.l1len ∧ (after .l1pack (withIbuf [1])).l1crc ≠ State.reset.l1crc ∧
    (after .l1parse State.reset).remain ≠ State.reset.remain ∧
    (after .l1parse (withIbuf (frameT25 ++ [0]))).xtra ≠ State.reset.xtra ∧
    (after .l1parse State.reset).isPartial ≠ State.reset.isPartial ∧
    (after (.setcmd 1) State.reset).l2cmd ≠ State.reset.l2cmd ∧
    (after (.setl2f 1) State.reset).l2flags ≠ State.reset.l2flags ∧
    (after .crc16 (withIbuf [1])).crcr ≠ State.reset.crcr :=
  ⟨⟨exec_after .., by decide, by decide +kernel⟩, by decide +kernel⟩
/-- One command that completes and one that raises. -/
theorem witness_ComputeCommandsRepeat : exec .l1parse (withIbuf frameT25) = .next (after .l1parse (withIbuf frameT25)) ∧
    exec .l2parse (withIbuf []) = .next (after .l2parse (withIbuf [])) ∧
    (after .l1parse (withIbuf frameT25)).err = none ∧ (after .l2parse (withIbuf [])).err = some .trunc :=
  ⟨exec_after .., exec_after .., by decide +kernel⟩
theorem witness_SrstEqualsPowerOn : (withIbuf [1]).params = State.reset.params ∧
    (withIbuf [1]).inputs = State.reset.inputs := ⟨rfl, rfl⟩
/-- Inside and at the end of each store. -/
theorem witness_HostReadsItems : (withIbuf [1]).ilen < 2 ^ 32 ∧ (State.reset.setObuf [1]).olen < 2 ^ 32 ∧
    (State.reset.setFtab [⟨1, [2]⟩]).fcnt < 2 ^ 32 ∧ (withIbuf [1]).ibuf[0]? = some 1 ∧ (withIbuf [1]).ilen ≤ 1 ∧
    (State.reset.setObuf [1]).obuf[0]? = some 1 ∧ (State.reset.setObuf [1]).olen ≤ 1 ∧
    (State.reset.setFtab [⟨1, [2]⟩]).ftab[0]? = some ⟨1, [2]⟩ ∧ [2#8].length < 2 ^ 32 ∧ [2#8][0]? = some 2 ∧
    [2#8].length ≤ 1 ∧ (State.reset.setFtab [⟨1, [2]⟩]).fcnt ≤ 1 := by decide +kernel
theorem witness_ReadsAndKeyDetermineState : (withIbuf [1]).ilen < 2 ^ 32 ∧ (withIbuf [1]).olen < 2 ^ 32 ∧
    (withIbuf [1]).fcnt < 2 ^ 32 ∧ ShortValues (withIbuf [1]).ftab ∧ SameReads (withIbuf [1]) (State.reset.setIbuf [1]) :=
  ⟨by decide +kernel, by decide +kernel, by decide +kernel, by simp [ShortValues, withIbuf, State.reset], fun _ => rfl⟩
theorem witness_StepKeepsInvariant : (State.reset.present (.command 0x51000000)).Inv ∧
    step (State.reset.present (.command 0x51000000)) = .next (after .l1parse State.reset) :=
  ⟨⟨resetWith_wf Params.default, rfl, rfl⟩, by
    show runWord 0x51000000 State.reset = _
    rw [runWord, show decode 0x51000000 = .ok .l1parse by decide +kernel]
    exact exec_after ..⟩
/-- A key byte apart, KVALID one bit short of 0xFFFF. -/
theorem witness_KeyIsConfidential :
    SameButKey { State.reset with kvalid := 0xFFFE } { State.reset with kvalid := 0xFFFE, key := keyT50 } ∧
    ({ State.reset with kvalid := 0xFFFE } : State).kvalid ≠ 0xFFFF ∧
    (State.reset.key ≠ keyT50) ∧ (Instr.otoi ≠ .aesenc ∧ Instr.otoi ≠ .aesdec) ∧
    exec .aesenc { State.reset with kvalid := 0xFFFE } = .next (after .aesenc { State.reset with kvalid := 0xFFFE }) ∧
    exec .aesenc { State.reset with kvalid := 0xFFFE, key := keyT50 } =
      .next (after .aesenc { State.reset with kvalid := 0xFFFE, key := keyT50 }) :=
  ⟨rfl, by decide, by decide +kernel, by decide, exec_after .., exec_after ..⟩
theorem witness_GeneratedCrcIsLinear : [1#8, 2].length = [3#8, 4].length := rfl
/-- The first and the last bit of the data. -/
theorem witness_ReflectedTablesDetectSingleBits : (0xA001 : Half).getLsbD 15 = true ∧ [1#8, 2].length ≤ 65535 ∧
    0 < [1#8, 2].length ∧ 1 < [1#8, 2].length := by decide
theorem witness_L1RoundTrip : [1#8].length ≤ 65535 ∧ (capped 9 (withIbuf [1])).ilen ≤ 65535 ∧
    Fits (capped 9 (withIbuf [1])).params.obufCap (8 + (capped 9 (withIbuf [1])).ilen) ∧
    Fits (capped 9 (withIbuf [1])).params.ibufCap (8 + (capped 9 (withIbuf [1])).ilen) := by
  simp only [← exceeds_eq_false]
  decide +kernel
/-- No byte, 7, 8, and all but one. -/
theorem witness_L1FragmentsArePartial : [1#8, 2].length ≤ 65535 ∧ 0 < 8 + [1#8, 2].length ∧ 7 < 8 ∧
    (8 < 8 + [1#8, 2].length ∧ 8 ≤ 8) ∧ 9 < 8 + [1#8, 2].length := by decide
theorem witness_PayloadFlipIsChecksumError : [1#8, 2].length ≤ 65535 ∧ 1 < [1#8, 2].length := by decide
theorem witness_BadFrameStaysBad : Raises .l1parse (withIbuf [0]) .framing ∧
    Raises .l1parse (withIbuf (frameT25.set 9 1)) .checksum :=
  ⟨raises_of_err (by decide +kernel), raises_of_err (by decide +kernel)⟩
/-- A table with a repeated key. -/
theorem witness_L2RoundTrip : ShortValues [⟨1, [2]⟩, ⟨1, []⟩] ∧ parseL2 [0, 0] = some (0, 0, []) ∧
    (State.reset.setFtab [⟨1, [2]⟩, ⟨1, []⟩]).Inv ∧
    Fits State.reset.params.obufCap (packedLength [⟨1, [2]⟩, ⟨1, []⟩]) ∧
    Fits State.reset.params.ibufCap (packedLength [⟨1, [2]⟩, ⟨1, []⟩]) := by
  simp only [← exceeds_eq_false, ShortValues, State.Inv]
  decide +kernel
theorem witness_EcbRoundTrip : (List.replicate 32 7#8).length % 16 = 0 ∧
    (keyed keyT50 (List.replicate 32 7)).kvalid = 0xFFFF ∧ (keyed keyT50 (List.replicate 32 7)).ilen % 16 = 0 ∧
    Fits (keyed keyT50 (List.replicate 32 7)).params.obufCap (keyed keyT50 (List.replicate 32 7)).ilen ∧
    Fits (keyed keyT50 (List.replicate 32 7)).params.ibufCap (keyed keyT50 (List.replicate 32 7)).ilen := by
  simp only [← exceeds_eq_false]
  decide +kernel
theorem witness_SboxIsAffineInverse : (0x53 : Byte) ≠ 0 ∧ gmul 0x53 0xCA = 1 := by decide +kernel

end Sys2Proof.Tests
end

section
/-! Where E_CAP can come from (00_scope.md R18, 60_exceptions.md R307): a command that leaves an error stopped with it,
E_CAP names a store and a size that does not fit it, and the default capacities hold whatever all commands but three
write. -/

namespace Sys2Proof.Machine

variable {i : Instr} {s t : State} {e : Err}

/-- An error in STATUS.ERR after a command is the one it stopped with (R310, R311). -/
theorem stops_of_err (h : exec i s = .next t) (he : t.err = some e) : Stops i s e := by
  rcases exec_cases h with ⟨s', -, rfl⟩ | ⟨e', hstop, rfl⟩
  · cases he
  · cases he
    exact hstop

@[simp] theorem Fits_unbounded (n : Nat) : Fits .unbounded n := trivial

@[simp] theorem Fits_bounded {m n : Nat} : Fits (.bounded m) n ↔ n ≤ m := Iff.rfl

/-- A command stops with E_CAP only at a size that one of the four capacities does not hold (R307). -/
theorem Stops.exists_not_fits (h : Stops i s .cap) :
    ∃ c ∈ [s.params.ibufCap, s.params.obufCap, s.params.ftabCap, s.params.fvalCap], ∃ n, ¬ Fits c n := by
  cases h with
  | ipush _ full | otoi full => exact ⟨s.params.ibufCap, by simp, _, full⟩
  | faddRecord _ _ full | l2parseRecords _ _ _ _ full => exact ⟨s.params.ftabCap, by simp, _, full⟩
  | faddValue _ _ _ full | l2parseValues _ _ _ _ _ full => exact ⟨s.params.fvalCap, by simp, _, full⟩
  | flookCap _ _ _ full | l1packCap _ full | l1parsePartial _ _ _ _ full | l1parseWhole _ _ _ _ full | l2pack full
  | aesencCap _ _ full | aesdecCap _ _ full => exact ⟨s.params.obufCap, by simp, _, full⟩

/-- A packed message is its two leading bytes, three bytes a record, and the values (R231, R235). -/
theorem packedLength_eq (recs : List Record) : packedLength recs = 2 + 3 * recs.length + valueBytes recs := by
  simp only [packedLength, valueBytes, List.sum_map_add, List.map_const', List.sum_replicate, smul_eq_mul]
  omega

/-- The message L2PARSE reads fills IBUF, so its records and values are bounded by ILEN (R242). -/
theorem parseL2_length {d : List Byte} {cmd flags : Byte} {recs : List Record}
    (h : parseL2 d = some (cmd, flags, recs)) : 2 + 3 * recs.length + valueBytes recs = d.length := by
  rw [← packedLength_eq, ← packL2_length cmd flags, (parseL2_eq_some h).1]

/-- With the default capacities whatever the other commands write fits: 65543 is a frame with the longest payload, and
a message of 65543 bytes has at most 21847 records (R18). -/
theorem Stops.writer_of_default_caps (h : Stops i s .cap) (hw : s.wf = true)
    (hibuf : s.params.ibufCap = .bounded 65543) (hobuf : s.params.obufCap = .bounded 65543)
    (hftab : s.params.ftabCap = .bounded 21847) (hfval : s.params.fvalCap = .bounded 65543) :
    (∃ b, i = .ipush b) ∨ (∃ k, i = .fadd k) ∨ i = .l2pack := by
  obtain ⟨ibufFits, obufFits, -, -, short⟩ := wf_iff.mp hw
  rw [hibuf, Fits_bounded] at ibufFits
  rw [hobuf, Fits_bounded] at obufFits
  cases h with
  | ipush b => exact .inl ⟨b, rfl⟩
  | faddRecord k | faddValue k => exact .inr (.inl ⟨k, rfl⟩)
  | l2pack => exact .inr (.inr rfl)
  | otoi full =>
    rw [hibuf] at full
    exact absurd obufFits full
  | flookCap k r only full =>
    rw [hobuf, Fits_bounded] at full
    have := short r (mem_of_recordsWith only)
    omega
  | l1packCap shortPayload full =>
    rw [hobuf, Fits_bounded] at full
    omega
  | l1parsePartial c hd n result full =>
    rw [hobuf, Fits_bounded] at full
    obtain ⟨-, -, -, -, hlen⟩ := parseL1_shortPayload result
    omega
  | l1parseWhole c hd n result full =>
    rw [hobuf, Fits_bounded] at full
    obtain ⟨-, -, hlen⟩ := parseL1_complete result
    omega
  | l2parseRecords c f recs result full =>
    rw [hftab, Fits_bounded] at full
    have := parseL2_length result
    omega
  | l2parseValues c f recs result fitsRecords full =>
    rw [hfval, Fits_bounded] at full
    have := parseL2_length result
    omega
  | aesencCap ready aligned full | aesdecCap ready aligned full =>
    rw [hobuf] at full
    exact absurd ibufFits full

end Sys2Proof.Machine

open Sys2Proof Sys2Proof.Machine

/-- Settles O34: every E_CAP comes from a size some capacity does not hold, and the default capacities hold every size
that follows from the invariant. -/
theorem capacityErrorsOnlyWhereStated : Obligations.CapacityErrorsOnlyWhereStated := by
  constructor
  · intro i s t hibuf hobuf hftab hfval hexec herr
    obtain ⟨c, hc, n, full⟩ := (stops_of_err hexec herr).exists_not_fits
    have unbounded : c = .unbounded := by simpa [hibuf, hobuf, hftab, hfval] using hc
    exact full (unbounded ▸ Fits_unbounded n)
  · rintro i s t ⟨hw, -, -⟩ hibuf hobuf hftab hfval hexec herr
    exact (stops_of_err hexec herr).writer_of_default_caps hw hibuf hobuf hftab hfval
end

section
/-! The invariant (10_state.md R32, R35, R43, R44, R51, R54, R57): reset meets it, and completing a command, raising an
error and power-on reset keep it, so every step does. -/

namespace Sys2Proof.Machine

variable {i : Instr} {s s' t : State}

/-- A step is idle, or runs the next input in the state that has taken it (R320, log 4). -/
theorem step_cases (h : step s = .next t) :
    (s.inputs = [] ∧ t = s) ∨ ∃ x rest, s.inputs = x :: rest ∧ runInput x (s.setInputs rest) = .next t := by
  rcases hin : s.inputs with _ | ⟨x, rest⟩
  · exact .inl ⟨rfl, by simpa [step, runNext, State.takeInput, hin, eq_comm] using h⟩
  · exact .inr ⟨x, rest, rfl, by simpa [step, runNext, State.takeInput, hin] using h⟩

/-- An input is a command, a word that is none and raises E_ILLEGAL (R113), or power-on reset (R352). -/
theorem runInput_cases {x : HostInput} (h : runInput x s = .next t) :
    (∃ i, exec i s = .next t) ∨ t = s.raiseError .illegal ∨ t = s.toReset := by
  cases x with
  | command w =>
    simp only [runInput, runWord] at h
    split at h
    next i _ => exact .inl ⟨i, h⟩
    next => exact .inr (.inl (by simpa [eq_comm] using h))
  | powerOn => exact .inr (.inr (by simpa [runInput, eq_comm] using h))

/-- A partial frame lacks at least one byte and a count below 65536, so REMAIN shows that it is partial (R43, R54). -/
theorem half_ne_zero {n : Nat} (h0 : 1 ≤ n) (hn : n ≤ 65535) : half n ≠ 0 := by
  intro h
  have hzero : 0 = n := by simpa [h] using half_toNat hn
  omega

/-- Setting the progress registers for a partial frame makes them agree (R44, R54). -/
theorem setProgress_partial_progressAgrees (s : State) {n : Nat} (h0 : 1 ≤ n) (hn : n ≤ 65535) :
    (s.setProgress (half n) 0 true).progressAgrees = true := by
  simpa [State.progressAgrees] using half_ne_zero h0 hn

/-- A completed command keeps PARTIAL, REMAIN and XTRA in agreement: only L1PARSE and SRST write them. -/
theorem Completes.progressAgrees (h : Completes i s s') (ha : s.progressAgrees = true) : s'.progressAgrees = true := by
  cases h with
  | srst => rfl
  | l1parseHeader n result =>
    obtain ⟨h0, hn, -⟩ := parseL1_shortHeader result
    exact setProgress_partial_progressAgrees _ h0 (by omega)
  | l1parsePartial c hd n result =>
    obtain ⟨h0, hn, -⟩ := parseL1_shortPayload result
    exact setProgress_partial_progressAgrees _ h0 hn
  | l1parseWhole => rfl
  | _ => exact ha

/-- Completing records no error, so there is none to log (R310). -/
theorem complete_errLogged (s : State) : s.complete.errLogged = true := rfl

/-- Raising sets the error's own bit of the log (R311). -/
theorem raiseError_errLogged (s : State) (e : Err) : (s.raiseError e).errLogged = true := by
  simp [State.errLogged, logError_getLsbD]

/-- The reset state meets the invariant, whatever the parameters and the inputs still to come (R59). -/
theorem toReset_inv (s : State) : s.toReset.Inv := ⟨toReset_wf s, rfl, rfl⟩

/-- Recording an error keeps the invariant: it touches no store and no progress register (R311). -/
theorem raiseError_inv (hs : s.Inv) (e : Err) : (s.raiseError e).Inv :=
  have ⟨hw, _, ha⟩ := hs
  ⟨hw, raiseError_errLogged s e, ha⟩

/-- Every command keeps the invariant, whether it completes or raises. -/
theorem exec_inv (h : exec i s = .next t) (hs : s.Inv) : t.Inv := by
  rcases exec_cases h with ⟨s', hc, rfl⟩ | ⟨e, -, rfl⟩
  · obtain ⟨hw, -, ha⟩ := hs
    exact ⟨hc.wf hw, complete_errLogged s', hc.progressAgrees ha⟩
  · exact raiseError_inv hs e

/-- Every input keeps the invariant. -/
theorem runInput_inv {x : HostInput} (h : runInput x s = .next t) (hs : s.Inv) : t.Inv := by
  rcases runInput_cases h with ⟨i, hexec⟩ | rfl | rfl
  · exact exec_inv hexec hs
  · exact raiseError_inv hs .illegal
  · exact toReset_inv s

end Sys2Proof.Machine

open Sys2Proof Sys2Proof.Machine

/-- Settles O44: the stores are empty, no error is recorded, and PARTIAL, REMAIN and XTRA are all 0. -/
theorem resetMeetsInvariant : Obligations.ResetMeetsInvariant := fun p => ⟨resetWith_wf p, rfl, rfl⟩

/-- Settles O45: an idle step changes nothing, and an input runs in a state that differs in the inputs only, which the
invariant does not mention. -/
theorem stepKeepsInvariant : Obligations.StepKeepsInvariant := by
  intro s t hs h
  rcases step_cases h with ⟨-, rfl⟩ | ⟨x, rest, -, hrun⟩
  · exact hs
  · exact runInput_inv hrun hs
end

section
/-! Confidentiality of KEY (10_state.md R31, 40_support_commands.md R146, 60_exceptions.md R327): no check and no write
but those of AESENC and AESDEC on a ready key depends on the key bytes. -/

namespace Sys2Proof.Machine

variable {i : Instr} {s s' t : State} {e : Err}

/-- The state with other key bytes. -/
def State.withKey (s : State) (k : Vector Byte 16) : State := { s with key := k }

/-- Two states differ in the key only when one is the other with other key bytes. -/
theorem sameButKey_iff : SameButKey s t ↔ ∃ k, t = s.withKey k :=
  ⟨fun h => ⟨t.key, h⟩, by rintro ⟨k, rfl⟩; rfl⟩

/-- No host read reaches the key (R31). -/
theorem hostRead_withKey (s : State) (k : Vector Byte 16) (item : ReadItem) :
    (s.withKey k).hostRead item = s.hostRead item := by
  cases item <;> rfl

/-- No check of any command looks at the key bytes. -/
theorem Stops.withKey (k : Vector Byte 16) : Stops i s e → Stops i (s.withKey k) e
  | .ipush b full => .ipush b full
  | .otoi full => .otoi full
  | .faddLength x long => .faddLength x long
  | .faddRecord x short full => .faddRecord x short full
  | .faddValue x short fits full => .faddValue x short fits full
  | .flookNone x empty => .flookNone x empty
  | .flookTwo x r q rest two => .flookTwo x r q rest two
  | .flookCap x r only full => .flookCap x r only full
  | .l1packLength long => .l1packLength long
  | .l1packCap short full => .l1packCap short full
  | .l1parseFraming result => .l1parseFraming result
  | .l1parseChecksum result => .l1parseChecksum result
  | .l1parsePartial c h n result full => .l1parsePartial c h n result full
  | .l1parseWhole c h n result full => .l1parseWhole c h n result full
  | .l2pack full => .l2pack full
  | .l2parseTrunc result => .l2parseTrunc result
  | .l2parseRecords c f recs result full => .l2parseRecords c f recs result full
  | .l2parseValues c f recs result fits full => .l2parseValues c f recs result fits full
  | .aesencKey unready => .aesencKey unready
  | .aesencAlign ready ragged => .aesencAlign ready ragged
  | .aesencCap ready aligned full => .aesencCap ready aligned full
  | .aesdecKey unready => .aesdecKey unready
  | .aesdecAlign ready ragged => .aesdecAlign ready ragged
  | .aesdecCap ready aligned full => .aesdecCap ready aligned full

/-- A command that completes without using the key completes alike under every other key. -/
theorem Completes.withKey (h : Completes i s s') (k : Vector Byte 16)
    (hkey : i ≠ .aesenc ∧ i ≠ .aesdec ∨ s.kvalid ≠ 0xFFFF) : ∃ k', Completes i (s.withKey k) (s'.withKey k') := by
  cases h with
  | nop => exact ⟨k, .nop⟩
  | srst => exact ⟨s.toReset.key, .srst⟩
  | iclr => exact ⟨k, .iclr⟩
  | ipush b fits => exact ⟨k, .ipush b fits⟩
  | oclr => exact ⟨k, .oclr⟩
  | otoi fits => exact ⟨k, .otoi fits⟩
  | setf b => exact ⟨k, .setf b⟩
  | setseq h => exact ⟨k, .setseq h⟩
  | setcmd b => exact ⟨k, .setcmd b⟩
  | setl2f b => exact ⟨k, .setl2f b⟩
  | setkey idx b => exact ⟨setKeyAt k idx b, .setkey idx b⟩
  | fclr => exact ⟨k, .fclr⟩
  | fadd x short fitsRecord fitsValue => exact ⟨k, .fadd x short fitsRecord fitsValue⟩
  | flook x r only fits => exact ⟨k, .flook x r only fits⟩
  | crc16 => exact ⟨k, .crc16⟩
  | l1pack short fits => exact ⟨k, .l1pack short fits⟩
  | l1parseHeader n result => exact ⟨k, .l1parseHeader n result⟩
  | l1parsePartial c h n result fits => exact ⟨k, .l1parsePartial c h n result fits⟩
  | l1parseWhole c h n result fits => exact ⟨k, .l1parseWhole c h n result fits⟩
  | l2pack fits => exact ⟨k, .l2pack fits⟩
  | l2parse c f recs result fitsRecords fitsValues => exact ⟨k, .l2parse c f recs result fitsRecords fitsValues⟩
  | aesenc ready | aesdec ready => simp [ready] at hkey

/-- A command that does not use the key answers states that differ in the key only, from such states. -/
theorem exec_withKey (h : exec i s = .next t) (k : Vector Byte 16)
    (hkey : i ≠ .aesenc ∧ i ≠ .aesdec ∨ s.kvalid ≠ 0xFFFF) : ∃ k', exec i (s.withKey k) = .next (t.withKey k') := by
  rcases exec_cases h with ⟨s', hc, rfl⟩ | ⟨e, hstop, rfl⟩
  · obtain ⟨k', hc'⟩ := hc.withKey k hkey
    exact ⟨k', hc'.exec_eq⟩
  · exact ⟨k, (hstop.withKey k).exec_eq⟩

end Sys2Proof.Machine

open Sys2Proof Sys2Proof.Machine

/-- Settles O46: the second state is the first with other key bytes, which no read reaches and no check or write of a
command that does not use the key depends on. -/
theorem keyIsConfidential : Obligations.KeyIsConfidential := by
  constructor
  · intro s t hst item
    obtain ⟨k, rfl⟩ := sameButKey_iff.mp hst
    exact (hostRead_withKey s k item).symm
  · intro i s t s' t' hst hkey hs ht
    obtain ⟨k, rfl⟩ := sameButKey_iff.mp hst
    obtain ⟨k', hk⟩ := exec_withKey hs k hkey
    exact sameButKey_iff.mpr ⟨k', by simpa [hk, eq_comm] using ht⟩
end

section
/-! ERRLOG and STATUS bit by bit (10_state.md R52 to R57). -/

namespace Sys2Proof.Machine

variable {i : Instr} {s s' t : State}

/-- Raising adds the bit of the code to ERRLOG, bit by bit (R57, R311). -/
theorem errlogWord_raiseError_getLsbD (s : State) (e : Err) (k : Nat) :
    (s.raiseError e).errlogWord.getLsbD k = true ↔ s.errlogWord.getLsbD k = true ∨ e.code = k := by
  obtain ⟨hcode, -⟩ := e.code_bounds
  simp only [errlogWord_getLsbD, raiseError_errlog, logError_getLsbD, Bool.and_eq_true, Bool.or_eq_true,
    decide_eq_true_eq]
  constructor
  · rintro ⟨hk, hbit | hbit⟩
    · exact .inl ⟨hk, hbit⟩
    · exact .inr (by omega)
  · rintro (⟨hk, hbit⟩ | rfl)
    · exact ⟨hk, .inl hbit⟩
    · exact ⟨hcode, .inr rfl⟩

/-- Completing sets no bit of ERRLOG, and only SRST clears one (R57, R310). -/
theorem Completes.errlogWord_eq (h : Completes i s s') (hi : i ≠ .srst) : s'.errlogWord = s.errlogWord := by
  rw [State.errlogWord, h.errlog_eq hi, State.errlogWord]

/-- The log is empty after reset (R59). -/
theorem resetWith_errlogWord (p : Params) : (State.resetWith p).errlogWord = 0 := by
  rw [State.errlogWord, resetWith_errlog]
  decide

/-- The status register is 0 after reset (R59). -/
theorem resetWith_statusWord (p : Params) : (State.resetWith p).statusWord = 0 := by
  rw [State.statusWord, resetWith_ftab, resetWith_isPartial, resetWith_err]
  decide

/-- STATUS bit by bit: ERR, PARTIAL, DUP, reserved (R52, R56). -/
theorem statusWord_getLsbD (s : State) (k : Nat) :
    s.statusWord.getLsbD k =
      if k < 4 then (errField s.err).getLsbD k
      else if k = 4 then s.isPartial
      else if k = 5 then dupFlag s.ftab
      else false := by
  simp only [State.statusWord, BitVec.getLsbD_append, BitVec.getLsbD_ofBool, BitVec.getLsbD_zero]
  by_cases herr : k < 4
  · simp [herr]
  · by_cases hpartial : k = 4
    · simp [hpartial]
    · by_cases hdup : k = 5
      · simp [hdup]
      · simp [herr, hpartial, hdup, show ¬ k - 4 < 1 by omega, show ¬ k - 4 - 1 < 1 by omega]

/-- Bit 5 of STATUS is the DUP flag (R52, R55). -/
theorem statusWord_dup (s : State) : s.statusWord.getLsbD 5 = dupFlag s.ftab := statusWord_getLsbD s 5

/-- The DUP flag is 0 exactly when the keys of the table differ pairwise (R55). -/
theorem dupFlag_eq_false_iff {recs : List Record} :
    dupFlag recs = false ↔ recs.Pairwise fun r q => r.key ≠ q.key := by
  induction recs with
  | nil => simp [dupFlag]
  | cons r recs ih => simp [dupFlag, ih, eq_comm (a := r.key)]

/-- The DUP flag is 1 exactly when two different indices hold the same key (R55). -/
theorem dupFlag_iff_exists {recs : List Record} :
    dupFlag recs = true ↔
      ∃ (i j : Nat) (r q : Record), i ≠ j ∧ recs[i]? = some r ∧ recs[j]? = some q ∧ r.key = q.key := by
  constructor
  · intro hdup
    have hnot : ¬ recs.Pairwise fun r q => r.key ≠ q.key := by simp [← dupFlag_eq_false_iff, hdup]
    simp only [List.pairwise_iff_getElem, not_forall, not_not] at hnot
    obtain ⟨i, j, hi, hj, hij, hkey⟩ := hnot
    exact ⟨i, j, recs[i], recs[j], hij.ne, List.getElem?_eq_getElem hi, List.getElem?_eq_getElem hj, hkey⟩
  · rintro ⟨i, j, r, q, hij, hr, hq, hkey⟩
    by_contra hdup
    have hpair := List.pairwise_iff_getElem.mp (dupFlag_eq_false_iff.mp (Bool.eq_false_iff.mpr hdup))
    obtain ⟨hi, rfl⟩ := List.getElem?_eq_some_iff.mp hr
    obtain ⟨hj, rfl⟩ := List.getElem?_eq_some_iff.mp hq
    rcases Nat.lt_or_gt_of_ne hij with hlt | hlt
    · exact hpair i j hi hj hlt hkey
    · exact hpair j i hj hi hlt hkey.symm

end Sys2Proof.Machine

open Sys2Proof Sys2Proof.Machine

/-- Settles O32: completing leaves the log as it was, raising adds the bit of its own code, SRST leaves the reset log,
and the reserved bits are absent. -/
theorem errlogIsSticky : Obligations.ErrlogIsSticky := by
  refine ⟨?_, ?_, ?_⟩
  · intro i s t k hexec hi
    rcases exec_cases hexec with ⟨s', hc, rfl⟩ | ⟨e, -, rfl⟩
    · have hlog : s'.complete.errlogWord = s.errlogWord := hc.errlogWord_eq hi
      simp [hlog]
    · simp [errlogWord_raiseError_getLsbD]
  · intro s t hexec
    have ht : t = s.toReset.complete := by simpa [Completes.srst.exec_eq, eq_comm] using hexec
    rw [ht]
    exact resetWith_errlogWord s.params
  · rintro s k (rfl | hk)
    · rw [errlogWord_getLsbD, decide_eq_false (by omega), Bool.false_and]
    · rw [errlogWord_getLsbD, BitVec.getLsbD_of_ge s.errlog (k - 1) (by omega), Bool.and_false]

/-- Settles O35: the bits of STATUS, with the ERR field spelled out by cases of the last error. -/
theorem statusLayout : Obligations.StatusLayout := by
  intro s k
  rw [statusWord_getLsbD]
  cases s.err <;> rfl
end

section
/-! Who writes what (10_state.md R32, R35, R48 to R51, R54): an item is as it was, or the command is one of its
writers. -/

namespace Sys2Proof.Machine

variable {i : Instr} {s s' t : State}

/-- Bit `j` of KVALID after SETKEY: set at the index written, else as before (R151). -/
theorem setValidBit_getLsbD (kvalid : BitVec 16) (idx : BitVec 4) (j : Nat) :
    (setValidBit kvalid idx).getLsbD j = (kvalid.getLsbD j || decide (idx.toNat = j)) := by
  have hidx := idx.isLt
  have hbit : (1#16 <<< idx.toNat).getLsbD j = decide (idx.toNat = j) := by
    rw [Bool.eq_iff_iff, BitVec.getLsbD_shiftLeft, BitVec.getLsbD_one]
    simp only [Bool.and_eq_true, Bool.not_eq_true', decide_eq_true_eq, decide_eq_false_iff_not]
    omega
  rw [setValidBit, BitVec.getLsbD_or, hbit]

/-- Another key byte than the one SETKEY writes stays (R151). -/
theorem setKeyAt_get_of_ne (key : Vector Byte 16) (idx : BitVec 4) (b : Byte) {j : Fin 16} (h : idx.toNat ≠ j.val) :
    (setKeyAt key idx b).get j = key.get j := by
  simp [setKeyAt, Vector.get_eq_getElem, Vector.getElem_set_ne, h]

namespace Completes

/-- IBUF (R32). -/
theorem ibuf_eq_or_writer (h : Completes i s s') :
    s'.ibuf = s.ibuf ∨ i = .iclr ∨ (∃ b, i = .ipush b) ∨ i = .otoi ∨ i = .srst := by
  cases h with
  | iclr | ipush | otoi | srst => simp
  | _ => exact .inl rfl

/-- OBUF (R35). -/
theorem obuf_eq_or_writer (h : Completes i s s') :
    s'.obuf = s.obuf ∨ i = .oclr ∨ i = .l1pack ∨ i = .l1parse ∨ i = .l2pack ∨ i = .aesenc ∨ i = .aesdec ∨
      (∃ k, i = .flook k) ∨ i = .srst := by
  cases h with
  | oclr | l1pack | l1parseHeader | l1parsePartial | l1parseWhole | l2pack | aesenc | aesdec | flook | srst => simp
  | _ => exact .inl rfl

/-- FTAB (R51). -/
theorem ftab_eq_or_writer (h : Completes i s s') :
    s'.ftab = s.ftab ∨ i = .fclr ∨ (∃ k, i = .fadd k) ∨ i = .l2parse ∨ i = .srst := by
  cases h with
  | fclr | fadd | l2parse | srst => simp
  | _ => exact .inl rfl

/-- A key byte (R49, R71). -/
theorem key_eq_or_writer (h : Completes i s s') (j : Fin 16) :
    s'.key.get j = s.key.get j ∨ (∃ idx b, i = .setkey idx b ∧ idx.toNat = j.val) ∨ i = .srst := by
  cases h with
  | srst => exact .inr (.inr rfl)
  | setkey idx b =>
    by_cases hj : idx.toNat = j.val
    · exact .inr (.inl ⟨idx, b, rfl, hj⟩)
    · exact .inl (setKeyAt_get_of_ne s.key idx b hj)
  | _ => exact .inl rfl

/-- A bit of KVALID (R50, R71). -/
theorem kvalid_eq_or_writer (h : Completes i s s') (j : Fin 16) :
    s'.kvalid.getLsbD j.val = s.kvalid.getLsbD j.val ∨ (∃ idx b, i = .setkey idx b ∧ idx.toNat = j.val) ∨
      i = .srst := by
  cases h with
  | srst => exact .inr (.inr rfl)
  | setkey idx b =>
    by_cases hj : idx.toNat = j.val
    · exact .inr (.inl ⟨idx, b, rfl, hj⟩)
    · exact .inl (by rw [setKeyByte_kvalid, setValidBit_getLsbD, decide_eq_false hj, Bool.or_false])
  | _ => exact .inl rfl

/-- L1FLAGS (R39). -/
theorem l1flags_eq_or_writer (h : Completes i s s') (hi : i ≠ .srst) :
    s'.l1flags = s.l1flags ∨ (∃ b, i = .setf b) ∨ i = .l1parse := by
  cases h with
  | srst => exact absurd rfl hi
  | setf | l1parsePartial | l1parseWhole => simp
  | _ => exact .inl rfl

/-- L1SEQ (R40). -/
theorem l1seq_eq_or_writer (h : Completes i s s') (hi : i ≠ .srst) :
    s'.l1seq = s.l1seq ∨ (∃ v, i = .setseq v) ∨ i = .l1parse := by
  cases h with
  | srst => exact absurd rfl hi
  | setseq | l1parsePartial | l1parseWhole => simp
  | _ => exact .inl rfl

/-- L1LEN and L1CRC are written together (R41, R42). -/
theorem l1LenCrc_eq_or_writer (h : Completes i s s') (hi : i ≠ .srst) :
    (s'.l1len = s.l1len ∧ s'.l1crc = s.l1crc) ∨ i = .l1pack ∨ i = .l1parse := by
  cases h with
  | srst => exact absurd rfl hi
  | l1pack | l1parsePartial | l1parseWhole => simp
  | _ => exact .inl ⟨rfl, rfl⟩

/-- REMAIN, XTRA and PARTIAL are written together (R43, R44, R54). -/
theorem progress_eq_or_writer (h : Completes i s s') (hi : i ≠ .srst) :
    (s'.remain = s.remain ∧ s'.xtra = s.xtra ∧ s'.isPartial = s.isPartial) ∨ i = .l1parse := by
  cases h with
  | srst => exact absurd rfl hi
  | l1parseHeader | l1parsePartial | l1parseWhole => exact .inr rfl
  | _ => exact .inl ⟨rfl, rfl, rfl⟩

/-- L2CMD (R45). -/
theorem l2cmd_eq_or_writer (h : Completes i s s') (hi : i ≠ .srst) :
    s'.l2cmd = s.l2cmd ∨ (∃ b, i = .setcmd b) ∨ i = .l2parse := by
  cases h with
  | srst => exact absurd rfl hi
  | setcmd | l2parse => simp
  | _ => exact .inl rfl

/-- L2FLAGS (R46). -/
theorem l2flags_eq_or_writer (h : Completes i s s') (hi : i ≠ .srst) :
    s'.l2flags = s.l2flags ∨ (∃ b, i = .setl2f b) ∨ i = .l2parse := by
  cases h with
  | srst => exact absurd rfl hi
  | setl2f | l2parse => simp
  | _ => exact .inl rfl

/-- CRCR (R47). -/
theorem crcr_eq_or_writer (h : Completes i s s') (hi : i ≠ .srst) : s'.crcr = s.crcr ∨ i = .crc16 := by
  cases h with
  | srst => exact absurd rfl hi
  | crc16 => exact .inr rfl
  | _ => exact .inl rfl

end Completes

end Sys2Proof.Machine

open Sys2Proof Sys2Proof.Machine

/-- Settles O37: an error leaves every store as it was, and a completed command changes only those it writes. -/
theorem storesHaveOnlyTheirWriters : Obligations.StoresHaveOnlyTheirWriters := by
  intro i s t hexec
  rcases exec_cases hexec with ⟨s', hc, rfl⟩ | ⟨e, -, rfl⟩
  · obtain ⟨hparams, hinputs⟩ := hc.params_inputs
    exact ⟨hc.ibuf_eq_or_writer.resolve_left, hc.obuf_eq_or_writer.resolve_left, hc.ftab_eq_or_writer.resolve_left,
      fun j => (hc.key_eq_or_writer j).resolve_left, fun j => (hc.kvalid_eq_or_writer j).resolve_left,
      hparams, hinputs⟩
  · simp

/-- Settles O38: an error leaves every data register as it was, and a completed command changes only those it writes. -/
theorem registersHaveOnlyTheirWriters : Obligations.RegistersHaveOnlyTheirWriters := by
  intro i s t hexec hi
  rcases exec_cases hexec with ⟨s', hc, rfl⟩ | ⟨e, -, rfl⟩
  · have lenCrc := hc.l1LenCrc_eq_or_writer hi
    have progress := hc.progress_eq_or_writer hi
    exact ⟨(hc.l1flags_eq_or_writer hi).resolve_left, (hc.l1seq_eq_or_writer hi).resolve_left,
      (lenCrc.imp_left And.left).resolve_left, (lenCrc.imp_left And.right).resolve_left,
      (progress.imp_left And.left).resolve_left, (progress.imp_left fun p => p.2.1).resolve_left,
      (progress.imp_left fun p => p.2.2).resolve_left, (hc.l2cmd_eq_or_writer hi).resolve_left,
      (hc.l2flags_eq_or_writer hi).resolve_left, (hc.crcr_eq_or_writer hi).resolve_left⟩
  · simp

/-- Settles O36: DUP is a function of FTAB, true when two indices share a key, false for the empty table, and changed
only with FTAB. -/
theorem dupMeansRepeatedKey : Obligations.DupMeansRepeatedKey := by
  refine ⟨?_, ?_, ?_⟩
  · intro s
    rw [statusWord_dup, dupFlag_iff_exists]
  · intro p
    rw [statusWord_dup]
    rfl
  · intro i s t hexec hchanged
    obtain ⟨-, -, ftabWriters, -⟩ := storesHaveOnlyTheirWriters i s t hexec
    refine ftabWriters fun hsame => hchanged ?_
    rw [statusWord_dup, statusWord_dup, hsame]
end

section
/-! KVALID after a sequence of SETKEYs (10_state.md R50, 70_reset_and_hazards.md R355). -/

namespace Sys2Proof.Machine

/-- SETKEY always completes (R151). -/
theorem execSeq_setkey_cons (idx : BitVec 4) (b : Byte) (is : List Instr) (s : State) :
    execSeq (.setkey idx b :: is) s = execSeq is (s.setKeyByte idx b).complete := by
  rw [execSeq, (Completes.setkey idx b).exec_eq]

/-- Every key byte is valid exactly when each index has its bit (R50). -/
theorem kvalid_all_iff (kvalid : BitVec 16) : kvalid = 0xFFFF ↔ ∀ j : BitVec 4, kvalid.getLsbD j.toNat = true := by
  constructor
  · rintro rfl
    decide
  · intro h
    apply BitVec.eq_of_getLsbD_eq
    intro j hj
    have hbit : kvalid.getLsbD j = true := by
      simpa [Nat.mod_eq_of_lt hj] using h (BitVec.ofNat 4 j)
    have hones : (0xFFFF : BitVec 16) = BitVec.allOnes 16 := rfl
    rw [hbit, hones, BitVec.getLsbD_allOnes, decide_eq_true hj]

/-- A sequence of SETKEYs goes on, and sets the bits of the indices written (R151, R355). -/
theorem execSeq_setkeys (writes : List (BitVec 4 × Byte)) (s : State) :
    ∃ t, execSeq (writes.map fun w => .setkey w.1 w.2) s = .next t ∧ ∀ j : BitVec 4,
      t.kvalid.getLsbD j.toNat = true ↔ s.kvalid.getLsbD j.toNat = true ∨ ∃ b, (j, b) ∈ writes := by
  induction writes generalizing s with
  | nil => exact ⟨s, rfl, by simp⟩
  | cons w writes ih =>
    obtain ⟨idx, b⟩ := w
    obtain ⟨t, hrun, hbits⟩ := ih (s.setKeyByte idx b).complete
    refine ⟨t, by rw [List.map_cons, execSeq_setkey_cons, hrun], fun j => ?_⟩
    have hidx : idx.toNat = j.toNat ↔ j = idx := by rw [BitVec.toNat_inj, eq_comm]
    simp [hbits, setValidBit_getLsbD, hidx, exists_or, or_assoc]

end Sys2Proof.Machine

open Sys2Proof Sys2Proof.Machine

/-- Settles O47: KVALID is 0xFFFF when each of the sixteen bits is set, and the sequence sets those it writes. -/
theorem keyReadyWhenAllWritten : Obligations.KeyReadyWhenAllWritten := by
  intro writes s
  obtain ⟨t, hrun, hbits⟩ := execSeq_setkeys writes s
  exact ⟨t, hrun, by simp only [kvalid_all_iff, hbits]⟩
end

section
/-! The host's reads (10_state.md R30, R31): what each gives, what it gives after reset, and that with the key they
determine the state. -/

namespace Sys2Proof.Machine

variable {s t : State}

/-- A byte inside a byte string (R31). -/
theorem byteAt_of_getElem? {bytes : List Byte} {i : Nat} {b : Byte} (h : bytes[i]? = some b) : byteAt bytes i = b := by
  rw [byteAt, List.getD_eq_getElem?_getD, h, Option.getD_some]

/-- A read beyond the end of a byte string (R31). -/
theorem setWidth_byteAt_of_length_le {bytes : List Byte} {i : Nat} (h : bytes.length ≤ i) :
    (byteAt bytes i).setWidth 32 = (0 : Word) := by
  rw [byteAt, List.getD_eq_default _ _ h]
  rfl

theorem hostRead_fieldKey {i : Nat} {r : Record} (h : s.ftab[i]? = some r) :
    s.hostRead (.fieldKey i) = r.key.setWidth 32 := by
  rw [State.hostRead, h]

theorem hostRead_fieldLength {i : Nat} {r : Record} (h : s.ftab[i]? = some r) :
    s.hostRead (.fieldLength i) = word32 r.value.length := by
  rw [State.hostRead, h]

theorem hostRead_fieldByte {i : Nat} {r : Record} (h : s.ftab[i]? = some r) (j : Nat) :
    s.hostRead (.fieldByte i j) = (byteAt r.value j).setWidth 32 := by
  rw [State.hostRead, h]

/-- A record beyond the end of the table reads as 0 in all its parts (R31). -/
theorem hostRead_field_of_fcnt_le {i : Nat} (h : s.fcnt ≤ i) :
    s.hostRead (.fieldKey i) = 0 ∧ s.hostRead (.fieldLength i) = 0 ∧ ∀ j, s.hostRead (.fieldByte i j) = 0 := by
  have hnone : s.ftab[i]? = none := List.getElem?_eq_none h
  simp only [State.hostRead, hnone, and_self, implies_true]

/-- Zero-extension to the 32 bits of the read port loses nothing. -/
theorem setWidth32_inj {w : Nat} {a b : BitVec w} (hw : w ≤ 32) (h : a.setWidth 32 = b.setWidth 32) : a = b := by
  have htoNat := congrArg BitVec.toNat h
  rwa [BitVec.toNat_setWidth_of_le hw, BitVec.toNat_setWidth_of_le hw, BitVec.toNat_inj] at htoNat

/-- Below 2^32 a count register tells counts apart (R33, R36, R51). -/
theorem word32_inj {m n : Nat} (hm : m < 2 ^ 32) (hn : n < 2 ^ 32) (h : word32 m = word32 n) : m = n := by
  rw [← word32_toNat hm, h, word32_toNat hn]

/-- Byte strings of one length that read alike are equal. -/
theorem bytes_eq_of_reads {d e : List Byte} (hlen : d.length = e.length)
    (h : ∀ i, (byteAt d i).setWidth 32 = (byteAt e i).setWidth 32) : d = e := by
  apply List.ext_getElem hlen
  intro i hd he
  have hbyte := setWidth32_inj (by decide) (h i)
  rwa [byteAt_of_getElem? (List.getElem?_eq_getElem hd), byteAt_of_getElem? (List.getElem?_eq_getElem he)] at hbyte

/-- STATUS determines the last error and PARTIAL (R52 to R54). -/
theorem statusWord_inj (h : s.statusWord = t.statusWord) : s.err = t.err ∧ s.isPartial = t.isPartial := by
  have hbit (k : Nat) : s.statusWord.getLsbD k = t.statusWord.getLsbD k := by rw [h]
  simp only [statusWord_getLsbD] at hbit
  constructor
  · apply errField_inj
    apply BitVec.eq_of_getLsbD_eq
    intro k hk
    simpa [hk] using hbit k
  · exact hbit 4

namespace SameReads

/-- Equal reads of two records give equal records, if their lengths are below 2^32 (R51). -/
theorem record_eq (h : SameReads s t) {i : Nat} {r q : Record} (hr : s.ftab[i]? = some r) (hq : t.ftab[i]? = some q)
    (hrlen : r.value.length < 2 ^ 32) (hqlen : q.value.length < 2 ^ 32) : r = q := by
  have hkey := h (.fieldKey i)
  rw [hostRead_fieldKey hr, hostRead_fieldKey hq] at hkey
  have hlen := h (.fieldLength i)
  rw [hostRead_fieldLength hr, hostRead_fieldLength hq] at hlen
  have hvalue : r.value = q.value := by
    refine bytes_eq_of_reads (word32_inj hrlen hqlen hlen) fun j => ?_
    rw [← hostRead_fieldByte hr, ← hostRead_fieldByte hq, h]
  cases r
  cases q
  exact congr (congrArg Record.mk (setWidth32_inj (by decide) hkey)) hvalue

theorem ibuf_eq (h : SameReads s t) (hs : s.ilen < 2 ^ 32) (ht : t.ilen < 2 ^ 32) : s.ibuf = t.ibuf :=
  bytes_eq_of_reads (word32_inj hs ht (h (.reg 2))) fun i => h (.ibufByte i)

theorem obuf_eq (h : SameReads s t) (hs : s.olen < 2 ^ 32) (ht : t.olen < 2 ^ 32) : s.obuf = t.obuf :=
  bytes_eq_of_reads (word32_inj hs ht (h (.reg 3))) fun i => h (.obufByte i)

theorem ftab_eq (h : SameReads s t) (hs : s.fcnt < 2 ^ 32) (ht : t.fcnt < 2 ^ 32) (hsv : ShortValues s.ftab)
    (htv : ShortValues t.ftab) : s.ftab = t.ftab := by
  apply List.ext_getElem (word32_inj hs ht (h (.reg 4)))
  intro i hi hj
  have hslen := hsv s.ftab[i] (List.getElem_mem hi)
  have htlen := htv t.ftab[i] (List.getElem_mem hj)
  exact h.record_eq (List.getElem?_eq_getElem hi) (List.getElem?_eq_getElem hj) (by omega) (by omega)

end SameReads

end Sys2Proof.Machine

open Sys2Proof Sys2Proof.Machine

/-- Settles O43: each item is read back from its register or its store, field by field. -/
theorem readsAndKeyDetermineState : Obligations.ReadsAndKeyDetermineState := by
  intro s t hparams hinputs hkey hsi hso hsf hsv hti hto htf htv h
  have reg8 {a b : Byte} (hab : a.setWidth 32 = b.setWidth 32) : a = b := setWidth32_inj (by decide) hab
  have reg16 {a b : Half} (hab : a.setWidth 32 = b.setWidth 32) : a = b := setWidth32_inj (by decide) hab
  obtain ⟨herr, hpartial⟩ := statusWord_inj (reg16 (h (.reg 0)))
  exact State.ext_fields hparams hinputs (h.ibuf_eq hsi hti) (h.obuf_eq hso hto) (h.ftab_eq hsf htf hsv htv) hkey
    (reg16 (h (.reg 14))) herr hpartial (errlogWord_inj (reg16 (h (.reg 1)))) (reg8 (h (.reg 5))) (reg16 (h (.reg 6)))
    (reg16 (h (.reg 7))) (reg16 (h (.reg 8))) (reg16 (h (.reg 9))) (h (.reg 10)) (reg8 (h (.reg 11)))
    (reg8 (h (.reg 12))) (reg16 (h (.reg 13)))

/-- Settles O40: STATUS and ERRLOG are computed from reset fields, and every other item is one. -/
theorem resetValues : Obligations.ResetValues :=
  ⟨rfl, fun p => ⟨resetWith_statusWord p, resetWith_errlogWord p,
    rfl, rfl, rfl, rfl, rfl, rfl, rfl, rfl, rfl, rfl, rfl, rfl, rfl⟩⟩

/-- Settles O42: each register number selects its item, a count below 2^32 keeps its value, and a read beyond the end of
a store gives 0. -/
theorem hostReadsItems : Obligations.HostReadsItems := by
  intro s
  refine ⟨rfl, rfl, word32_toNat, word32_toNat, word32_toNat, rfl, rfl, rfl, rfl, rfl, rfl, rfl, rfl, rfl, rfl, rfl,
    fun i b hb => congrArg (BitVec.setWidth 32) (byteAt_of_getElem? hb),
    fun i b hb => congrArg (BitVec.setWidth 32) (byteAt_of_getElem? hb),
    fun i => setWidth_byteAt_of_length_le, fun i => setWidth_byteAt_of_length_le,
    fun i r hr => ⟨hostRead_fieldKey hr, fun hlen => ?_, fun j b hb => ?_, fun j hj => ?_⟩,
    fun i => hostRead_field_of_fcnt_le⟩
  · rw [hostRead_fieldLength hr, word32_toNat hlen]
  · rw [hostRead_fieldByte hr, byteAt_of_getElem? hb]
  · rw [hostRead_fieldByte hr, setWidth_byteAt_of_length_le hj]
end

section
/-! One step as its command (20_memory.md R85, 60_exceptions.md R330), and issuing a compute command again (R83, R314):
it writes nothing that its own checks or results read, so the second issue writes what stands there already. -/

namespace Sys2Proof.Machine

variable {i : Instr} {s s' t : State} {e : Err}

/-- A step with an input presented runs it in the state that has taken it (R330). -/
theorem step_of_inputs_cons {x : HostInput} {rest : List HostInput} (h : s.inputs = x :: rest) :
    step s = runInput x (s.setInputs rest) := by
  simp [step, runNext, State.takeInput, h]

/-- A command word that decodes runs its command (R111). -/
theorem runInput_command_of_decode {w : Word} (h : decode w = .ok i) (s : State) :
    runInput (.command w) s = exec i s := by
  simp [runInput, runWord, h]

/-- A command of one of the compute units (R83). -/
def IsCompute (i : Instr) : Prop :=
  i = .crc16 ∨ i = .l1pack ∨ i = .l1parse ∨ i = .l2pack ∨ i = .l2parse ∨ i = .aesenc ∨ i = .aesdec

/-- No check looks at STATUS.ERR or ERRLOG, so a command that stopped stops again with the same error (R314). -/
theorem Stops.after_raiseError (h : Stops i s e) : Stops i (s.raiseError e) e := by
  cases h with
  | faddValue k short fitsRecord full => exact .faddValue k short fitsRecord full
  | l1parseWhole c h n result full => exact .l1parseWhole c h n result full
  | l2parseValues c f recs result fitsRecords full => exact .l2parseValues c f recs result fitsRecords full
  | _ => constructor <;> assumption

/-- Raising the same error twice records it once (R311). -/
theorem raiseError_raiseError (s : State) (e : Err) : (s.raiseError e).raiseError e = s.raiseError e := by
  have hlog : logError (logError s.errlog e) e = logError s.errlog e := by
    rw [logError, logError, BitVec.or_assoc, BitVec.or_self]
  rw [State.raiseError, raiseError_errlog, hlog]
  rfl

/-- A compute command that completed completes again, and leaves the state it finds (R83). -/
theorem Completes.after_complete (h : Completes i s s') (hi : IsCompute i) : Completes i s'.complete s'.complete := by
  cases h with
  | crc16 => exact .crc16
  | l1pack short fits => exact .l1pack short fits
  | l1parseHeader n result => exact .l1parseHeader n result
  | l1parsePartial c h n result fits => exact .l1parsePartial c h n result fits
  | l1parseWhole c h n result fits => exact .l1parseWhole c h n result fits
  | l2pack fits => exact .l2pack fits
  | l2parse c f recs result fitsRecords fitsValues => exact .l2parse c f recs result fitsRecords fitsValues
  | aesenc ready aligned fits => exact .aesenc ready aligned fits
  | aesdec ready aligned fits => exact .aesdec ready aligned fits
  | _ => simp [IsCompute] at hi

end Sys2Proof.Machine

open Sys2Proof Sys2Proof.Machine

/-- Settles O39: a compute command that completed completes again where it left off, and one that stopped meets the
same failing check, whose error is recorded already. -/
theorem computeCommandsRepeat : Obligations.ComputeCommandsRepeat := by
  intro i s t hi hexec
  rcases exec_cases hexec with ⟨s', hc, rfl⟩ | ⟨e, hstop, rfl⟩
  · exact (hc.after_complete hi).exec_eq
  · rw [hstop.after_raiseError.exec_eq, raiseError_raiseError]

/-- Settles O7: the step takes the word and runs the command it decodes to. -/
theorem stepRunsDecodedCommand : Obligations.StepRunsDecodedCommand := by
  intro s w rest i hin hdecode
  rw [step_of_inputs_cons hin, runInput_command_of_decode hdecode]
  rfl
end

section
/-! The command word and the opcode table (30_encoding.md R100 to R114): what a format reads of a word, the row of each
command, and the words that match it. -/

namespace Sys2Proof

variable {w : Word} {f : Format} {i : Instr}

/-- What a format reads of a word: the opcode and its operand fields, with the must-be-zero bits cleared (R101 to
R104). -/
def Format.wordRead (f : Format) (w : Word) : Word :=
  match f with
  | .z => mkWord (opField w) 0 0
  | .b8 => mkWord (opField w) 0 ((imm8Field w).setWidth 16)
  | .b16 => mkWord (opField w) 0 (imm16Field w)
  | .ab8 => mkWord (opField w) ((idxField w).setWidth 8) ((imm8Field w).setWidth 16)

theorem Format.wordRead_and_mustBeZero (f : Format) (w : Word) : f.wordRead w &&& f.mustBeZero = 0 := by
  rw [mustBeZero_eq_mkWord]
  cases f <;> simp [wordRead, mkWord_and, byte_operand_fits, index_operand_fits] <;> decide

theorem eq_zero_of_and_byteMask {a : Byte} (h : a &&& 0xFF#8 = 0) : a = 0 :=
  (Laws.TableRow.and_byteMask a).symm.trans h

/-- A format reads the whole of a word whose must-be-zero bits are clear (R111). -/
theorem Format.wordRead_of_clear (hclear : w &&& f.mustBeZero = 0) : f.wordRead w = w := by
  obtain ⟨ha, hb⟩ := (and_mustBeZero w f).mp hclear
  conv_rhs => rw [← mkWord_fields w]
  rw [wordRead.eq_def]
  cases f with
  | z =>
    have hB : imm16Field w = 0 := BitVec.and_allOnes.symm.trans hb
    rw [eq_zero_of_and_byteMask ha, hB]
  | b8 => simp only [eq_zero_of_and_byteMask ha, imm8Field_eq, half_of_low_byte hb]
  | b16 => rw [eq_zero_of_and_byteMask ha]
  | ab8 => simp only [idxField_eq, imm8Field_eq, byte_of_low_nibble ha, half_of_low_byte hb]

/-- The row a word's opcode names gives the command whose encoding the row's format reads (R110, R111). -/
theorem rowOf_eq_some (h : rowOf w = some (f, i)) : f = i.format ∧ encode i = f.wordRead w := by
  have hop := (BitVec.ofNat_toNat 8 (opField w)).trans (BitVec.setWidth_eq _)
  unfold rowOf at h
  split at h <;> cases h
  all_goals
    rename_i hnumber
    rw [hnumber] at hop
    rw [Format.wordRead, ← hop]
    exact ⟨rfl, rfl⟩

/-- The opcode of a command names its row, and the row's format reads the operands back (R110). -/
theorem rowOf_encode (i : Instr) : rowOf (encode i) = some (i.format, i) := by
  cases i <;> simp [rowOf, encode, Instr.format]

/-- The row depends on the opcode alone (R111). -/
theorem rowOf_of_opField (h : opField w = opField (encode i)) : ∃ j, rowOf w = some (i.format, j) := by
  cases i <;> simp [rowOf, h, encode, Instr.format]

/-- An encoding keeps the must-be-zero bits of its format clear (R101 to R104). -/
theorem encode_and_mustBeZero (i : Instr) : encode i &&& i.format.mustBeZero = 0 := by
  obtain ⟨-, hread⟩ := rowOf_eq_some (rowOf_encode i)
  rw [hread]
  exact i.format.wordRead_and_mustBeZero (encode i)

theorem decode_eq_ok : decode w = .ok i ↔ rowOf w = some (i.format, i) ∧ w &&& i.format.mustBeZero = 0 := by
  constructor
  · intro h
    unfold decode at h
    split at h
    · cases h
    · next f j hrow =>
      split at h <;> cases h
      obtain ⟨rfl, -⟩ := rowOf_eq_some hrow
      exact ⟨hrow, ‹_›⟩
  · rintro ⟨hrow, hclear⟩
    simp [decode, hrow, hclear]

/-- Decoding gives back every command with its operands. -/
theorem decode_encode (i : Instr) : decode (encode i) = .ok i :=
  decode_eq_ok.mpr ⟨rowOf_encode i, encode_and_mustBeZero i⟩

/-- Decoding drops no bit of the word (R111). -/
theorem encode_of_decode (h : decode w = .ok i) : encode i = w := by
  obtain ⟨hrow, hclear⟩ := decode_eq_ok.mp h
  obtain ⟨-, hread⟩ := rowOf_eq_some hrow
  rw [hread, Format.wordRead_of_clear hclear]

/-! ## The rows of the opcode table -/

/-- An opcode alone sets no must-be-zero bit. -/
theorem opcode_and_mustBeZero (op : Byte) (f : Format) : mkWord op 0 0 &&& f.mustBeZero = 0 := by
  rw [mustBeZero_eq_mkWord, mkWord_and]
  simp only [BitVec.ofNat_eq_ofNat, BitVec.zero_and, BitVec.and_zero]
  rfl

/-- A mask keeps the opcode and the must-be-zero bits of its format. -/
theorem and_mask (w : Word) (f : Format) : w &&& f.mask = mkWord (opField w) 0 0 ||| (w &&& f.mustBeZero) := by
  have hop : w &&& mkWord 0xFF 0 0 = mkWord (opField w) 0 0 := by
    conv_lhs => rw [← mkWord_fields w]
    simp only [mkWord_and, BitVec.ofNat_eq_ofNat, Laws.TableRow.and_byteMask, BitVec.and_zero]
  have hmask : f.mask = mkWord 0xFF 0 0 ||| f.mustBeZero := rfl
  rw [hmask, BitVec.and_or_distrib_left, hop]

/-- Masking leaves an opcode alone exactly when it is the word's and the must-be-zero bits are clear (R110, R111). -/
theorem and_mask_eq_iff {op : Byte} :
    w &&& f.mask = mkWord op 0 0 ↔ opField w = op ∧ w &&& f.mustBeZero = 0 := by
  rw [and_mask]
  constructor
  · intro h
    have hclear : w &&& f.mustBeZero = 0 := by
      have hbits := congrArg (· &&& f.mustBeZero) h
      simp only [BitVec.and_or_distrib_right, opcode_and_mustBeZero, BitVec.and_assoc, BitVec.and_self] at hbits
      exact BitVec.zero_or.symm.trans hbits
    rw [hclear] at h
    exact ⟨(mkWord_inj.mp (BitVec.or_zero.symm.trans h)).1, hclear⟩
  · rintro ⟨rfl, hclear⟩
    rw [hclear]
    exact BitVec.or_zero

/-- A command's row of the opcode table: its `match` and its `mask` (R110). -/
def Instr.row (i : Instr) : Word × Word := (i.matchWord, i.format.mask)

/-- The word of every command lies in its row. -/
theorem encode_and_mask (i : Instr) : encode i &&& i.format.mask = i.matchWord := by
  cases i with
  | nop => exact Laws.TableRow.nop
  | srst => exact Laws.TableRow.srst
  | iclr => exact Laws.TableRow.iclr
  | ipush b => exact Laws.TableRow.ipush b
  | oclr => exact Laws.TableRow.oclr
  | otoi => exact Laws.TableRow.otoi
  | setf b => exact Laws.TableRow.setf b
  | setseq h => exact Laws.TableRow.setseq h
  | setcmd b => exact Laws.TableRow.setcmd b
  | setl2f b => exact Laws.TableRow.setl2f b
  | setkey idx b => exact Laws.TableRow.setkey idx b
  | fclr => exact Laws.TableRow.fclr
  | fadd k => exact Laws.TableRow.fadd k
  | flook k => exact Laws.TableRow.flook k
  | crc16 => exact Laws.TableRow.crc16
  | l1pack => exact Laws.TableRow.l1pack
  | l1parse => exact Laws.TableRow.l1parse
  | l2pack => exact Laws.TableRow.l2pack
  | l2parse => exact Laws.TableRow.l2parse
  | aesenc => exact Laws.TableRow.aesenc
  | aesdec => exact Laws.TableRow.aesdec

/-- The `match` column is the command's opcode above 24 zero bits. -/
theorem matchWord_eq_mkWord (i : Instr) : i.matchWord = mkWord (opField (encode i)) 0 0 := by
  rw [← encode_and_mask i]
  exact and_mask_eq_iff.mpr ⟨rfl, encode_and_mustBeZero i⟩

/-- The words that match a row are those that decode to a command of that row (R110). -/
theorem matches_row_iff : w &&& i.row.2 = i.row.1 ↔ ∃ j, decode w = .ok j ∧ j.row = i.row := by
  constructor
  · intro h
    obtain ⟨hop, hclear⟩ := and_mask_eq_iff.mp (h.trans (matchWord_eq_mkWord i))
    obtain ⟨j, hrow⟩ := rowOf_of_opField hop
    obtain ⟨hformat, -⟩ := rowOf_eq_some hrow
    have hdecode : decode w = .ok j := decode_eq_ok.mpr ⟨hformat ▸ hrow, hformat ▸ hclear⟩
    refine ⟨j, hdecode, ?_⟩
    rw [Instr.row, Instr.row, matchWord_eq_mkWord, matchWord_eq_mkWord, encode_of_decode hdecode, hop, hformat]
  · rintro ⟨j, hdecode, hrow⟩
    rw [← hrow, ← encode_of_decode hdecode]
    exact encode_and_mask j


/-- The columns of the opcode table, row by row, from one command of each row. -/
theorem opcodeRows_eq_map : Machine.opcodeRows = [Instr.nop, .srst, .iclr, .ipush 0, .oclr, .otoi, .setf 0, .setseq 0,
    .setcmd 0, .setl2f 0, .setkey 0 0, .fclr, .fadd 0, .flook 0, .crc16, .l1pack, .l1parse, .l2pack, .l2parse, .aesenc,
    .aesdec].map Instr.row := by
  rfl

/-- The table's rows are the rows of the commands (R110). -/
theorem mem_opcodeRows {row : Word × Word} : row ∈ Machine.opcodeRows ↔ ∃ i : Instr, i.row = row := by
  rw [opcodeRows_eq_map]
  constructor
  · intro h
    obtain ⟨i, -, hi⟩ := List.mem_map.mp h
    exact ⟨i, hi⟩
  · rintro ⟨i, rfl⟩
    cases i <;> simp [Instr.row, Instr.matchWord, Instr.format]

end Sys2Proof

namespace Sys2Proof.Machine

/-- A command word that decodes to no command raises E_ILLEGAL (R113). -/
theorem runInput_command_of_reject {w : Word} {r : Reject} (h : decode w = .error r) (s : State) :
    runInput (.command w) s = .next (s.raiseError .illegal) := by
  simp [runInput, runWord, h]

end Sys2Proof.Machine

open Sys2Proof Sys2Proof.Machine

/-- Settles O2: the encoding of a command lies in its row with the must-be-zero bits clear, and the row's format reads
the operands back. -/
theorem decodeOfEncode : Obligations.DecodeOfEncode := decode_encode

/-- Settles O3: the command of a row encodes to what the row's format reads, which is the whole word when the
must-be-zero bits are clear. -/
theorem decodedWordIsItsEncoding : Obligations.DecodedWordIsItsEncoding := fun _ _ => encode_of_decode

/-- Settles O4: the table's rows are the rows of the commands, and a word matches the row of the command it decodes to
and no other. -/
theorem wordIsCommandWhenMaskMatches : Obligations.WordIsCommandWhenMaskMatches := by
  refine ⟨rfl, fun w => ⟨⟨?_, ?_⟩, ?_⟩⟩
  · rintro ⟨i, hdecode⟩
    exact ⟨i.row, mem_opcodeRows.mpr ⟨i, rfl⟩, matches_row_iff.mpr ⟨i, hdecode, rfl⟩⟩
  · rintro ⟨row, hmem, hmatch⟩
    obtain ⟨i, rfl⟩ := mem_opcodeRows.mp hmem
    obtain ⟨j, hdecode, -⟩ := matches_row_iff.mp hmatch
    exact ⟨j, hdecode⟩
  · intro i hdecode row hmem hmatch
    obtain ⟨k, rfl⟩ := mem_opcodeRows.mp hmem
    obtain ⟨j, hj, hrow⟩ := matches_row_iff.mp hmatch
    cases hdecode.symm.trans hj
    exact hrow.symm

/-- Settles O5: a word that matches no row does not decode, so the step that has taken it raises E_ILLEGAL. -/
theorem illegalWordRaises : Obligations.IllegalWordRaises := by
  intro w rest s hnone hin
  obtain ⟨-, htable⟩ := wordIsCommandWhenMaskMatches
  cases hdecode : decode w with
  | ok i =>
    obtain ⟨row, hmem, hmatch⟩ := (htable w).1.mp ⟨i, hdecode⟩
    exact absurd hmatch (hnone row hmem)
  | error r =>
    exact ⟨_, by rw [step_of_inputs_cons hin, runInput_command_of_reject hdecode],
      raiseError_onlyErrorRecorded _ _⟩

/-- Settles O1: nine words of the listings and the seven illegal words of R114, decoded one by one. -/
theorem listedWordsDecode : Obligations.ListedWordsDecode := by
  unfold Obligations.ListedWordsDecode
  decide +kernel
end

section
/-! Assembler lines (30_encoding.md R116, R117): what operands each shape accepts, and the run of the commands a FIELD
line expands to (40_support_commands.md R142, R143, R153). -/

namespace Sys2Proof

namespace AsmLine

variable {m : String} {ops : List Nat}

/-- A line with a known mnemonic is well formed when its shape accepts the operands (R116). -/
theorem wf_eq {sh : OperandShape} (h : asmShape m = some sh) : AsmLine.wf ⟨m, ops⟩ = sh.accepts ops := by
  simp [AsmLine.wf, h]

theorem wf_none (h : asmShape m = some .none) : AsmLine.wf ⟨m, ops⟩ = true ↔ ops = [] := by
  simp [wf_eq h, OperandShape.accepts]

theorem wf_imm8 (h : asmShape m = some .imm8) : AsmLine.wf ⟨m, ops⟩ = true ↔ ∃ n < 256, ops = [n] := by
  rw [wf_eq h]
  rcases ops with _ | ⟨a, _ | ⟨b, rest⟩⟩ <;> simp [OperandShape.accepts]

theorem wf_imm16 (h : asmShape m = some .imm16) : AsmLine.wf ⟨m, ops⟩ = true ↔ ∃ n < 65536, ops = [n] := by
  rw [wf_eq h]
  rcases ops with _ | ⟨a, _ | ⟨b, rest⟩⟩ <;> simp [OperandShape.accepts]

theorem wf_idxImm8 (h : asmShape m = some .idxImm8) :
    AsmLine.wf ⟨m, ops⟩ = true ↔ ∃ i < 16, ∃ n < 256, ops = [i, n] := by
  rw [wf_eq h]
  rcases ops with _ | ⟨a, _ | ⟨b, _ | ⟨c, rest⟩⟩⟩ <;> simp [OperandShape.accepts]

theorem wf_bytes (h : asmShape m = some .bytes) : AsmLine.wf ⟨m, ops⟩ = true ↔ ∀ b ∈ ops, b < 256 := by
  simp [wf_eq h, OperandShape.accepts]

theorem wf_bytes16 (h : asmShape m = some .bytes16) :
    AsmLine.wf ⟨m, ops⟩ = true ↔ ops.length = 16 ∧ ∀ b ∈ ops, b < 256 := by
  simp [wf_eq h, OperandShape.accepts]

theorem wf_keyBytes (h : asmShape m = some .keyBytes) :
    AsmLine.wf ⟨m, ops⟩ = true ↔ ∃ k < 256, ∃ bs, ops = k :: bs ∧ ∀ b ∈ bs, b < 256 := by
  rw [wf_eq h]
  cases ops <;> simp [OperandShape.accepts]

end AsmLine

end Sys2Proof

namespace Sys2Proof.Machine

variable {i : Instr} {s s' : State}

/-- A sequence whose first command completes goes on with the rest (R85). -/
theorem execSeq_cons_of_completes (h : Completes i s s') (is : List Instr) :
    execSeq (i :: is) s = execSeq is s'.complete := by
  rw [execSeq, h.exec_eq]

/-- The IPUSHes of a byte string that fits IBUF append it, and the rest of the commands follow (R117, R143). -/
theorem execSeq_expandPushes (v : List Byte) (is : List Instr) (s : State)
    (fits : Fits s.params.ibufCap (s.ilen + v.length)) (hcompleted : s.complete = s) :
    execSeq (expandPushes (v.map BitVec.toNat) ++ is) s = execSeq is (s.setIbuf (s.ibuf ++ v)) := by
  induction v generalizing s with
  | nil =>
    rw [List.append_nil]
    rfl
  | cons b v ih =>
    have hfirst : Fits s.params.ibufCap (s.ilen + 1) := fits.mono (by simp)
    have hpush : (s.setIbuf (s.ibuf ++ [b])).complete = s.complete.setIbuf (s.ibuf ++ [b]) := rfl
    have hrest : Fits s.params.ibufCap ((s.ibuf ++ [b]).length + v.length) := by
      simpa [State.ilen, Nat.add_assoc, Nat.add_comm 1] using fits
    calc execSeq (expandPushes ((b :: v).map BitVec.toNat) ++ is) s
        = execSeq (.ipush b :: (expandPushes (v.map BitVec.toNat) ++ is)) s := by simp [expandPushes]
      _ = execSeq (expandPushes (v.map BitVec.toNat) ++ is) (s.setIbuf (s.ibuf ++ [b])) := by
        rw [execSeq_cons_of_completes (.ipush b hfirst), hpush, hcompleted]
      _ = execSeq is (s.setIbuf (s.ibuf ++ (b :: v))) := by
        rw [ih (s.setIbuf (s.ibuf ++ [b])) hrest (by rw [hpush, hcompleted]), setIbuf_ibuf, List.append_assoc]
        rfl

/-- The commands of a FIELD line whose value and record fit leave the value in IBUF and the record in FTAB (R117). -/
theorem execSeq_field (k : Byte) (v : List Byte) (s : State) (short : v.length ≤ 65535)
    (fitsBuffer : Fits s.params.ibufCap v.length) (fitsRecord : Fits s.params.ftabCap (s.fcnt + 1))
    (fitsValue : Fits s.params.fvalCap (valueBytes s.ftab + v.length)) :
    execSeq (.iclr :: expandPushes (v.map BitVec.toNat) ++ [.fadd k]) s =
      .next ((s.setIbuf v).setFtab (s.ftab ++ [⟨k, v⟩])).complete := by
  have hpushes := execSeq_expandPushes v [.fadd k] (s.setIbuf []).complete
    (by simpa [State.ilen] using fitsBuffer) rfl
  have hadd : Completes (.fadd k) ((s.setIbuf []).complete.setIbuf v)
      (((s.setIbuf []).complete.setIbuf v).setFtab (s.ftab ++ [⟨k, v⟩])) := .fadd k short fitsRecord fitsValue
  rw [List.cons_append, execSeq_cons_of_completes .iclr, hpushes]
  exact execSeq_cons_of_completes hadd []

end Sys2Proof.Machine

open Sys2Proof Sys2Proof.Machine

/-- Settles O6: each mnemonic has the shape that says its operands, and FIELD empties IBUF, pushes the value and adds
the record. -/
theorem fieldLineAppendsRecord : Obligations.FieldLineAppendsRecord := by
  refine ⟨fun l h => by simp [assemble, h], fun m hm ops => ?_, fun m hm ops => ?_, fun ops => ?_, fun ops => ?_,
    fun m hm ops => ?_, fun ops => ?_, fun ops => ?_, fun s k v short fitsBuffer fitsRecord fitsValue => ⟨?_, ?_⟩⟩
  · exact AsmLine.wf_none (by revert m; decide +kernel)
  · exact AsmLine.wf_imm8 (by revert m; decide +kernel)
  · exact AsmLine.wf_imm16 rfl
  · exact AsmLine.wf_idxImm8 rfl
  · exact AsmLine.wf_bytes (by revert m; decide +kernel)
  · exact AsmLine.wf_bytes16 rfl
  · exact AsmLine.wf_keyBytes rfl
  · exact (AsmLine.wf_keyBytes rfl).mpr ⟨k.toNat, k.isLt, _, rfl, by simpa using fun b _ => BitVec.isLt b⟩
  · change execSeq (.iclr :: expandPushes (v.map BitVec.toNat) ++ [.fadd (BitVec.ofNat 8 k.toNat)]) s = _
    rw [BitVec.ofNat_toNat, BitVec.setWidth_eq, execSeq_field k v s short fitsBuffer fitsRecord fitsValue]
    rfl
end

section
/-! Every step goes on (40_support_commands.md R156, 60_exceptions.md R313), whatever the input, and leaves the
parameters and the inputs still to come (70_reset_and_hazards.md R353). -/

namespace Sys2Proof.Machine

/-- With nothing presented the step idles (R320, log 4). -/
theorem step_of_inputs_nil {s : State} (h : s.inputs = []) : step s = .next s := by
  simp [step, runNext, State.takeInput, h]

/-- A command goes on, and touches neither the parameters nor the inputs (R313, R353). -/
theorem exec_goes_on (i : Instr) (s : State) :
    ∃ t, exec i s = .next t ∧ t.inputs = s.inputs ∧ t.params = s.params := by
  rcases completes_or_stops i s with ⟨s', hc⟩ | ⟨e, hstop⟩
  · obtain ⟨hparams, hinputs⟩ := hc.params_inputs
    exact ⟨s'.complete, hc.exec_eq, hinputs, hparams⟩
  · exact ⟨s.raiseError e, hstop.exec_eq, rfl, rfl⟩

/-- Every input, a command, a word that is none or a power-on pulse, goes on and leaves the parameters and the inputs
still to come (R313, R352, R353). -/
theorem runInput_goes_on (x : HostInput) (s : State) :
    ∃ t, runInput x s = .next t ∧ t.inputs = s.inputs ∧ t.params = s.params := by
  cases x with
  | powerOn => exact ⟨s.toReset, rfl, rfl, rfl⟩
  | command w =>
    cases hdecode : decode w with
    | ok i => simpa only [runInput_command_of_decode hdecode] using exec_goes_on i s
    | error r => exact ⟨s.raiseError .illegal, runInput_command_of_reject hdecode s, rfl, rfl⟩

end Sys2Proof.Machine

open Sys2Proof Sys2Proof.Machine

/-- Settles O9: with no input the step idles, and with one it runs the input in the state that has taken it. -/
theorem everyStepGoesOn : Obligations.EveryStepGoesOn := by
  intro s
  cases hin : s.inputs with
  | nil => exact ⟨s, step_of_inputs_nil hin, hin, rfl⟩
  | cons x rest =>
    obtain ⟨t, hrun, hinputs, hparams⟩ := runInput_goes_on x (s.setInputs rest)
    exact ⟨t, by rw [step_of_inputs_cons hin, hrun], hinputs, hparams⟩
end

section
/-! The words of the support commands (30_encoding.md R100 to R104): the opcode with the operands OR-ed in, and the
words with an assigned opcode that are no command (R113). -/

namespace Sys2Proof

variable {w : Word} {i : Instr}

/-- A word is its opcode with the A field 16 bits up and the B field OR-ed in (R100). -/
theorem mkWord_eq_or (op a : Byte) (b : Half) :
    mkWord op a b = mkWord op 0 0 ||| (a.setWidth 32 <<< 16) ||| b.setWidth 32 := by
  apply BitVec.eq_of_getLsbD_eq
  intro k hk
  simp only [mkWord_getLsbD, BitVec.getLsbD_or, BitVec.getLsbD_shiftLeft, BitVec.getLsbD_setWidth]
  by_cases hB : k < 16
  · simp [hB, hk]
  · by_cases hA : k < 24
    · simp [hB, hA, hk, show k - 16 < 32 by omega, BitVec.getLsbD_of_ge b k (by omega)]
    · simp [hB, hA, show 8 ≤ k - 16 by omega, show 16 ≤ k by omega]

/-- Format B16: the opcode OR the immediate (R103). -/
theorem mkWord_b16 (op : Byte) (imm16 : Half) : mkWord op 0 imm16 = mkWord op 0 0 ||| imm16.setWidth 32 := by
  rw [mkWord_eq_or]
  simp

/-- Format B8: the opcode OR the immediate (R102). -/
theorem mkWord_b8 (op imm8 : Byte) : mkWord op 0 (imm8.setWidth 16) = mkWord op 0 0 ||| imm8.setWidth 32 := by
  rw [mkWord_b16, BitVec.setWidth_setWidth (by decide)]

/-- Format AB8: the opcode OR the index 16 bits up OR the immediate (R104). -/
theorem mkWord_ab8 (op : Byte) (idx : BitVec 4) (imm8 : Byte) :
    mkWord op (idx.setWidth 8) (imm8.setWidth 16) =
      mkWord op 0 0 ||| (idx.setWidth 32 <<< 16) ||| imm8.setWidth 32 := by
  rw [mkWord_eq_or, BitVec.setWidth_setWidth (by decide), BitVec.setWidth_setWidth (by decide)]

/-- A word with the opcode of a command and a must-be-zero bit of its format set is illegal (R111, R113). -/
theorem decode_eq_mustBeZeroBitSet (hop : opField w = opField (encode i)) (hset : w &&& i.format.mustBeZero ≠ 0) :
    decode w = .error .mustBeZeroBitSet := by
  obtain ⟨j, hrow⟩ := rowOf_of_opField hop
  simp only [decode, hrow, if_neg hset]

end Sys2Proof
end

section
/-! The control, buffer and register commands (40_support_commands.md R140 to R151). -/

namespace Sys2Proof.Machine

variable {i : Instr} {s s' t : State} {e : Err}

/-- A command that fails a check raises its error. -/
theorem Stops.raises (h : Stops i s e) : Raises i s e := raises_iff.mpr h.exec_eq

/-- A completed command other than SRST clears no bit of KVALID (R50, R141). -/
theorem Completes.kvalid_mono (h : Completes i s s') (hi : i ≠ .srst) {k : Nat} (hbit : s.kvalid.getLsbD k = true) :
    s'.kvalid.getLsbD k = true := by
  cases h with
  | srst => exact absurd rfl hi
  | setkey idx b => simp [setValidBit_getLsbD, hbit]
  | _ => exact hbit

/-- No command but SRST clears a bit of ERRLOG or KVALID (R50, R57, R141). -/
theorem exec_keeps_log_and_valid (h : exec i s = .next t) (hi : i ≠ .srst) (k : Nat) :
    (s.errlogWord.getLsbD k = true → t.errlogWord.getLsbD k = true) ∧
      (s.kvalid.getLsbD k = true → t.kvalid.getLsbD k = true) := by
  rcases exec_cases h with ⟨s', hc, rfl⟩ | ⟨e, -, rfl⟩
  · have hlog : s'.complete.errlogWord = s.errlogWord := hc.errlogWord_eq hi
    exact ⟨fun hbit => hlog ▸ hbit, hc.kvalid_mono hi⟩
  · exact ⟨fun hbit => (errlogWord_raiseError_getLsbD s e k).mpr (.inl hbit), id⟩

/-- The key bytes after SETKEY: the byte written at its index, the others as before (R151). -/
theorem setKeyAt_get (key : Vector Byte 16) (idx : BitVec 4) (b : Byte) (j : Fin 16) :
    (setKeyAt key idx b).get j = if j.val = idx.toNat then b else key.get j := by
  split
  · next hj => simp [setKeyAt, Vector.get_eq_getElem, hj]
  · next hj => exact setKeyAt_get_of_ne key idx b (Ne.symm hj)

end Sys2Proof.Machine

open Sys2Proof Sys2Proof.Machine

/-- Settles O10: NOP has no check and no write, and a word that format Z reads whole is its opcode alone. -/
theorem nopClearsErrOnly : Obligations.NopClearsErrOnly := by
  refine ⟨rfl, fun s => Completes.nop.exec_eq, fun w hop hne => ?_⟩
  refine decode_eq_mustBeZeroBitSet (i := .nop) hop fun hclear => hne ?_
  have hread : mkWord (opField w) 0 0 = w := Format.wordRead_of_clear hclear
  rw [← hread, hop]
  rfl

/-- Settles O11: SRST leaves the reset state, as power-on does, and every other command only sets bits of ERRLOG and
KVALID. -/
theorem srstResetsEveryItem : Obligations.SrstResetsEveryItem := by
  refine ⟨rfl, fun s => ⟨s.toReset.complete, Completes.srst.exec_eq, ?_⟩⟩
  exact ⟨rfl, rfl, rfl, rfl, rfl, rfl, rfl, rfl, rfl, rfl, rfl, rfl, rfl, resetWith_statusWord s.params,
    resetWith_errlogWord s.params, rfl, rfl, fun _ => rfl, fun i t' k hi hexec => exec_keeps_log_and_valid hexec hi k⟩

/-- Settles O12: ICLR has no check and one write. -/
theorem iclrEmptiesIbuf : Obligations.IclrEmptiesIbuf := ⟨rfl, fun _ => Completes.iclr.exec_eq⟩

/-- Settles O13: IPUSH completes when one more byte fits and stops with E_CAP when it does not. -/
theorem ipushAppendsOrRaises : Obligations.IpushAppendsOrRaises := fun b _ =>
  ⟨mkWord_b8 0x11 b, fun fits => (Completes.ipush b fits).exec_eq, fun full => (Stops.ipush b full).raises⟩

/-- Settles O14: OCLR has no check and one write. -/
theorem oclrEmptiesObuf : Obligations.OclrEmptiesObuf := ⟨rfl, fun _ => Completes.oclr.exec_eq⟩

/-- Settles O15: OTOI completes when OBUF fits IBUF and stops with E_CAP when it does not; OBUF within its own bound is
within a larger one. -/
theorem otoiCopiesOrRaises : Obligations.OtoiCopiesOrRaises := by
  refine ⟨rfl, fun s => ⟨fun fits => (Completes.otoi fits).exec_eq, fun full => (Stops.otoi full).raises,
    fun hw larger => ?_⟩⟩
  obtain ⟨-, obufFits, -⟩ := wf_iff.mp hw
  exact larger s.olen obufFits

/-- Settles O16: SETF has no check and one write. -/
theorem setfWritesL1Flags : Obligations.SetfWritesL1Flags := fun b _ =>
  ⟨mkWord_b8 0x20 b, (Completes.setf b).exec_eq⟩

/-- Settles O17: SETSEQ has no check and one write. -/
theorem setseqWritesL1Seq : Obligations.SetseqWritesL1Seq := fun h _ =>
  ⟨mkWord_b16 0x21 h, (Completes.setseq h).exec_eq⟩

/-- Settles O18: SETCMD has no check and one write. -/
theorem setcmdWritesL2Cmd : Obligations.SetcmdWritesL2Cmd := fun b _ =>
  ⟨mkWord_b8 0x22 b, (Completes.setcmd b).exec_eq⟩

/-- Settles O19: SETL2F has no check and one write. -/
theorem setlTwofWritesL2Flags : Obligations.SetlTwofWritesL2Flags := fun b _ =>
  ⟨mkWord_b8 0x23 b, (Completes.setl2f b).exec_eq⟩

/-- Settles O20: an A field with clear upper bits is its low four bits, so it is below 16; and SETKEY writes the byte
and the valid bit at its index. -/
theorem setkeyWritesOneKeyByte : Obligations.SetkeyWritesOneKeyByte := by
  constructor
  · intro w hop hlarge
    refine decode_eq_mustBeZeroBitSet (i := .setkey 0 0) hop fun hclear => ?_
    obtain ⟨hA, -⟩ := (and_mustBeZero w .ab8).mp hclear
    have hidx := ((w.extractLsb' 16 8).setWidth 4).isLt
    rw [← byte_of_low_nibble hA, BitVec.toNat_setWidth_of_le (by decide)] at hlarge
    omega
  · intro idx b s
    refine ⟨mkWord_ab8 0x24 idx b, (s.setKeyByte idx b).complete, (Completes.setkey idx b).exec_eq,
      setKeyAt_get s.key idx b, fun j => ?_, rfl⟩
    rw [complete_kvalid, setKeyByte_kvalid, setValidBit_getLsbD, Bool.or_comm, decide_eq_decide.mpr eq_comm]
end

section
/-! The field-table commands (40_support_commands.md R152 to R154): DUP when a record is appended (R55), and the records
a key selects. -/

namespace Sys2Proof.Machine

variable {k : Byte} {recs : List Record} {r q : Record} {i j : Nat}

/-- Appending a record sets DUP when its key was already present, and never clears it: the new record differs from all
others or repeats the key of one (R55, R153). -/
theorem dupFlag_append_singleton :
    dupFlag (recs ++ [r]) = true ↔ dupFlag recs = true ∨ ∃ q ∈ recs, q.key = r.key := by
  have hclear : dupFlag (recs ++ [r]) = false ↔ dupFlag recs = false ∧ ∀ q ∈ recs, q.key ≠ r.key := by
    simp [dupFlag_eq_false_iff, List.pairwise_append]
  rw [← not_iff_not]
  simpa using hclear

/-- No record is selected exactly when none has the key (R154). -/
theorem recordsWith_eq_nil_iff : recordsWith k recs = [] ↔ ∀ r ∈ recs, r.key ≠ k := by
  simp [recordsWith]

theorem recordsWith_append (recs recs' : List Record) :
    recordsWith k (recs ++ recs') = recordsWith k recs ++ recordsWith k recs' :=
  List.filter_append recs recs'

theorem mem_recordsWith : r ∈ recordsWith k recs ↔ r ∈ recs ∧ r.key = k := by
  simp [recordsWith]

/-- Two records with the key at different indices are both selected (R154): one stands before index `j`, one from `j`
on. -/
theorem recordsWith_eq_cons_cons (hij : i < j) (hr : recs[i]? = some r) (hq : recs[j]? = some q) (hrk : r.key = k)
    (hqk : q.key = k) : ∃ r' q' rest, recordsWith k recs = r' :: q' :: rest := by
  have hbefore : r ∈ recordsWith k (recs.take j) :=
    mem_recordsWith.mpr ⟨List.mem_of_getElem? (i := i) (by rw [List.getElem?_take_of_lt hij, hr]), hrk⟩
  have hafter : q ∈ recordsWith k (recs.drop j) :=
    mem_recordsWith.mpr ⟨List.mem_of_getElem? (i := 0) (by rw [List.getElem?_drop, Nat.add_zero, hq]), hqk⟩
  have hlength : 2 ≤ (recordsWith k recs).length := by
    have hsplit := congrArg List.length (recordsWith_append (k := k) (recs.take j) (recs.drop j))
    rw [List.take_append_drop, List.length_append] at hsplit
    have := List.length_pos_of_mem hbefore
    have := List.length_pos_of_mem hafter
    omega
  match hsel : recordsWith k recs with
  | [] | [_] => simp [hsel] at hlength
  | r' :: q' :: rest => exact ⟨r', q', rest, rfl⟩

/-- The only record with the key is the whole selection (R154): none stands before it and none after. -/
theorem recordsWith_eq_singleton (hr : recs[i]? = some r) (hrk : r.key = k)
    (honly : ∀ (j : Nat) (q : Record), j ≠ i → recs[j]? = some q → q.key ≠ k) : recordsWith k recs = [r] := by
  obtain ⟨hi, rfl⟩ := List.getElem?_eq_some_iff.mp hr
  have hbefore : recordsWith k (recs.take i) = [] := by
    refine recordsWith_eq_nil_iff.mpr fun q hq => ?_
    obtain ⟨j, hj, rfl⟩ := List.mem_take_iff_getElem.mp hq
    exact honly j _ (by omega) (List.getElem?_eq_getElem _)
  have hafter : recordsWith k (recs.drop (i + 1)) = [] := by
    refine recordsWith_eq_nil_iff.mpr fun q hq => ?_
    obtain ⟨j, hj, rfl⟩ := List.mem_drop_iff_getElem.mp hq
    exact honly (i + 1 + j) _ (by omega) (List.getElem?_eq_getElem _)
  calc recordsWith k recs
      = recordsWith k (recs.take i ++ recs[i] :: recs.drop (i + 1)) := by
        rw [List.getElem_cons_drop, List.take_append_drop]
    _ = recordsWith k [recs[i]] := by
        rw [recordsWith_append, hbefore, List.nil_append, ← List.singleton_append, recordsWith_append, hafter,
          List.append_nil]
    _ = [recs[i]] := by simp [recordsWith, hrk]

end Sys2Proof.Machine

open Sys2Proof Sys2Proof.Machine

/-- Settles O21: FCLR has no check and one write, and the empty table repeats no key. -/
theorem fclrEmptiesFtab : Obligations.FclrEmptiesFtab :=
  ⟨rfl, fun _ => ⟨Completes.fclr.exec_eq, statusWord_dup _⟩⟩

/-- Settles O22: FADD completes when the length, the table and the value store all admit the record, and stops at the
first that does not; the appended record repeats a key when one of the table has it. -/
theorem faddAppendsOrRaises : Obligations.FaddAppendsOrRaises := by
  refine fun k s => ⟨mkWord_b8 0x31 k, fun long => (Stops.faddLength k long).raises,
    fun short full => (Stops.faddRecord k short full).raises, fun short full => ?_,
    fun short fitsRecord fitsValue => (Completes.fadd k short fitsRecord fitsValue).exec_eq, dupFlag_append_singleton⟩
  by_cases fitsRecord : Fits s.params.ftabCap (s.fcnt + 1)
  · exact (Stops.faddValue k short fitsRecord full).raises
  · exact (Stops.faddRecord k short fitsRecord).raises

/-- Settles O23: the records the key selects are none, two or more, or the one record, which then fits OBUF or does
not. -/
theorem flookFindsOrRaises : Obligations.FlookFindsOrRaises := by
  refine fun k s => ⟨mkWord_b8 0x32 k, fun hnone => (Stops.flookNone k (recordsWith_eq_nil_iff.mpr hnone)).raises,
    ?_, ?_⟩
  · intro i j r q hij hr hq hrk hqk
    obtain ⟨r', q', rest, two⟩ := recordsWith_eq_cons_cons hij hr hq hrk hqk
    exact (Stops.flookTwo k r' q' rest two).raises
  · intro i r hr hrk honly
    have only := recordsWith_eq_singleton hr hrk honly
    exact ⟨fun fits => (Completes.flook k r only fits).exec_eq, fun full => (Stops.flookCap k r only full).raises⟩
end

section
/-! The CRC unit (41_crc16.md R181 to R190): the table index as a number, a generated table's step as eight steps of
the register, its linearity, and that it loses nothing when bit 15 of the polynomial is set. -/

namespace Sys2Proof.Machine

variable {P : Half}

/-- The table index is the low byte of the register XOR the data byte (R181, R182). -/
theorem crcIndex_val (r : Half) (b : Byte) : (crcIndex r b).val = r.toNat % 256 ^^^ b.toNat := by
  calc ((r ^^^ b.setWidth 16) &&& 0x00FF#16).toNat
      = (r.toNat ^^^ b.toNat) &&& (2 ^ 8 - 1) := by
        rw [BitVec.toNat_and, BitVec.toNat_xor, BitVec.toNat_setWidth_of_le (by decide)]
        rfl
    _ = r.toNat % 2 ^ 8 ^^^ b.toNat := by
        rw [Nat.and_two_pow_sub_one_eq_mod, Nat.xor_mod_two_pow, Nat.mod_eq_of_lt b.isLt]

/-- The table index as the register value whose table entry is looked up (R183). -/
theorem ofNat_crcIndex (r : Half) (b : Byte) :
    BitVec.ofNat 16 (crcIndex r b).val = (r ^^^ b.setWidth 16) &&& 0x00FF#16 := by
  rw [crcIndex, BitVec.ofNat_toNat, BitVec.setWidth_eq]

/-- The CRC of one more byte (R181). -/
theorem crc16_concat (T : CrcTable) (d : List Byte) (b : Byte) :
    crc16 T (d ++ [b]) = T.get (crcIndex (crc16 T d) b) ^^^ (crc16 T d >>> 8) :=
  crc16_append T d [b]

/-- The CRC of one byte is its table entry (R187). -/
theorem crc16_singleton (T : CrcTable) (b : Byte) : crc16 T [b] = T.get b.toFin := by
  have hindex : crcIndex 0 b = b.toFin := Fin.ext (by simp [crcIndex_val])
  calc crc16 T [b] = T.get (crcIndex 0 b) ^^^ 0#16 := rfl
    _ = T.get b.toFin := by rw [hindex, BitVec.xor_zero]

/-- A byte lies in the low eight bits, so it is gone after eight shifts. -/
theorem ushiftRight_xor_byte (r : Half) (b : Byte) : (r ^^^ b.setWidth 16) >>> 8 = r >>> 8 := by
  have hbyte : b.setWidth 16 >>> 8 = 0#16 := by
    ext k hk
    simp [← BitVec.getLsbD_eq_getElem hk]
  rw [BitVec.ushiftRight_xor_distrib, hbyte, BitVec.xor_zero]

/-- One step with a generated table is eight steps of the register (R189): the entry takes the low byte through them,
and the high byte is shifted down. -/
theorem crcStep_crcTableOf (P r : Half) (b : Byte) :
    crcStep (crcTableOf P) r b = crcShifts P 8 (r ^^^ b.setWidth 16) := by
  rw [crcShifts_eight, ushiftRight_xor_byte, crcStep, crcTableOf_get, ofNat_crcIndex]

/-! ## Linearity -/

/-- An entry of a generated table is the byte taken through eight steps (R183). -/
theorem crcTableOf_get_toFin (P : Half) (b : Byte) : (crcTableOf P).get b.toFin = crcShifts P 8 (b.setWidth 16) :=
  (crcTableOf_get P b.toFin).trans (congrArg _ (BitVec.ofNat_toNat 16 b))

/-- One step with a generated table is linear in the register and the byte together (R189). -/
theorem crcStep_xor (P r q : Half) (a b : Byte) :
    crcStep (crcTableOf P) (r ^^^ q) (a ^^^ b) = crcStep (crcTableOf P) r a ^^^ crcStep (crcTableOf P) q b := by
  have hinput : r ^^^ q ^^^ (a ^^^ b).setWidth 16 = (r ^^^ a.setWidth 16) ^^^ (q ^^^ b.setWidth 16) := by
    rw [BitVec.setWidth_xor]
    ac_rfl
  simp only [crcStep_crcTableOf, hinput, crcShifts_xor]

/-- The fold is linear in the start value and the bytes together, on inputs of one length (R189). -/
theorem foldl_crcStep_xorBytes {d e : List Byte} (h : d.length = e.length) (P r q : Half) :
    (xorBytes d e).foldl (crcStep (crcTableOf P)) (r ^^^ q) =
      d.foldl (crcStep (crcTableOf P)) r ^^^ e.foldl (crcStep (crcTableOf P)) q := by
  induction d generalizing e r q with
  | nil =>
    obtain rfl := List.length_eq_zero_iff.mp h.symm
    rfl
  | cons a d ih =>
    obtain ⟨b, e, rfl⟩ := List.exists_cons_of_length_eq_add_one h.symm
    have hcons : xorBytes (a :: d) (b :: e) = (a ^^^ b) :: xorBytes d e := rfl
    rw [hcons, List.foldl_cons, crcStep_xor, ih (by simpa using h), List.foldl_cons, List.foldl_cons]

/-! ## Single bits -/

/-- With bit 15 of `P` set, different register values stay different through the steps of R183. -/
theorem crcShifts_injective (hP : P.getLsbD 15 = true) (n : Nat) : Function.Injective (crcShifts P n) := by
  intro r q h
  have hdiff : crcShifts P n (r ^^^ q) = 0 := by rw [crcShifts_xor, h]; exact BitVec.xor_self
  exact BitVec.xor_eq_zero_iff.mp (crcShifts_eq_zero hP hdiff)

/-- A step with such a table keeps different register values different. -/
theorem crcStep_injective (hP : P.getLsbD 15 = true) (b : Byte) :
    Function.Injective fun r => crcStep (crcTableOf P) r b := by
  intro r q h
  simp only [crcStep_crcTableOf] at h
  exact (BitVec.xor_left_inj _).mp (crcShifts_injective hP 8 h)

/-- A step with such a table tells different bytes apart. -/
theorem crcStep_injective_byte (hP : P.getLsbD 15 = true) (r : Half) :
    Function.Injective (crcStep (crcTableOf P) r) := by
  intro a b h
  simp only [crcStep_crcTableOf] at h
  have hwide := (BitVec.xor_right_inj _).mp (crcShifts_injective hP 8 h)
  simpa using congrArg (BitVec.setWidth 8) hwide

/-- Further bytes keep different register values different. -/
theorem foldl_crcStep_injective (hP : P.getLsbD 15 = true) (d : List Byte) :
    Function.Injective (d.foldl (crcStep (crcTableOf P))) := by
  induction d with
  | nil => exact Function.injective_id
  | cons b d ih => exact ih.comp (crcStep_injective hP b)

/-- Flipping a bit changes the byte. -/
theorem xor_bit_ne (x : Byte) (b : Fin 8) : x ^^^ (1#8 <<< b.val) ≠ x := by
  have hbit : 1#8 <<< b.val ≠ 0 := by
    revert b
    decide
  simpa using hbit

/-- The flipped string differs from the string in one byte, the one at index `i`. -/
theorem flipBit_eq_append {d : List Byte} {i : Nat} (h : i < d.length) (b : Fin 8) :
    flipBit d i b = d.take i ++ (d[i] ^^^ (1#8 <<< b.val)) :: d.drop (i + 1) :=
  List.modify_eq_take_cons_drop h

/-- A table generated from a polynomial with bit 15 set meets the condition of R188 (R190): the registers agree up to
the flipped bit, differ after its byte, and stay different. -/
theorem detectsSingleBit_crcTableOf (hP : P.getLsbD 15 = true) : DetectsSingleBit (crcTableOf P) := by
  intro d i b _ hi heq
  have hsplit : d = d.take i ++ d[i] :: d.drop (i + 1) := by rw [List.getElem_cons_drop, List.take_append_drop]
  rw [flipBit_eq_append hi, crc16_append] at heq
  conv at heq => rhs; rw [hsplit, crc16_append]
  exact xor_bit_ne d[i] b (crcStep_injective_byte hP _ (foldl_crcStep_injective hP _ heq))

/-- The printed default table is the one generated from 0xA001 (R183, R184; log 2). -/
theorem defaultCrcTable_eq : defaultCrcTable = crcTableOf 0xA001 := by decide +kernel

end Sys2Proof.Machine

open Sys2Proof Sys2Proof.Machine

/-- Settles O50: eight steps are linear, so are the entries, one step, and the fold from 0 XOR 0. -/
theorem generatedCrcIsLinear : Obligations.GeneratedCrcIsLinear := by
  refine fun P => ⟨?_, fun a b => ?_, fun d e h => ?_, crcStep_crcTableOf P⟩
  · exact (crcTableOf_get P 0).trans (crcShifts_zero P 8)
  · simp only [crcTableOf_get_toFin, BitVec.setWidth_xor, crcShifts_xor]
  · exact foldl_crcStep_xorBytes h P 0 0

/-- Settles O51: 0xA001, which generates the default table, has bit 15 set. -/
theorem reflectedTablesDetectSingleBits : Obligations.ReflectedTablesDetectSingleBits :=
  ⟨fun _ => detectsSingleBit_crcTableOf, defaultCrcTable_eq ▸ detectsSingleBit_crcTableOf (by decide)⟩

/-- Settles O24: CRC16 has no check and one write. -/
theorem crcCommandLatchesCrc : Obligations.CrcCommandLatchesCrc := ⟨rfl, fun _ => Completes.crc16.exec_eq⟩

/-- Settles O48: the fold of R181 from 0, its index written as a number. -/
theorem crcFollowsRecurrence : Obligations.CrcFollowsRecurrence := by
  refine fun T => ⟨crc16_nil T, fun d b => ?_, crc16_append T, crc16_singleton T⟩
  rw [crc16_concat]
  exact congrArg (T.get · ^^^ _) (Fin.ext (crcIndex_val _ b))

/-- Settles O49: the printed table against the generator, and its values read off. -/
theorem defaultTableIsGenerated : Obligations.DefaultTableIsGenerated := by
  refine ⟨defaultCrcTable_eq, ?_⟩
  decide +kernel
end

section
/-! A changed payload bit (42_l1_frame.md R202, R220): it leaves the header, so only the CRC can tell. -/

namespace Sys2Proof.Machine

@[simp] theorem flipBit_length (d : List Byte) (i : Nat) (b : Fin 8) : (flipBit d i b).length = d.length :=
  List.length_modify ..

/-- Exactly the declared number of bytes is a checksum error when, and only when, their CRC is not the declared one
(R202). -/
theorem parsePayload_eq_checksum_iff {T : CrcTable} {h : L1Header} {body : List Byte}
    (hlen : body.length = h.length.toNat) : parsePayload T h body = .checksum ↔ crc16 T body ≠ h.crc := by
  rw [parsePayload, if_neg (by omega), List.take_of_length_le (by omega)]
  split
  · next heq => simp [heq]
  · next hne => simp [hne]

/-- Flipping a payload bit of a packed frame is a checksum error exactly when it changes the CRC of the payload
(R220). -/
theorem parseL1_flipBit_payload (T : CrcTable) (flags : Byte) (seq : Half) {d : List Byte} (hlen : d.length ≤ 65535)
    (i : Nat) (b : Fin 8) :
    parseL1 T (flipBit (packL1 T flags seq d) (8 + i) b) = .checksum ↔ crc16 T (flipBit d i b) ≠ crc16 T d := by
  have hflip : flipBit (packL1 T flags seq d) (8 + i) b =
      startByte :: flags :: lo8 (half d.length) :: hi8 (half d.length) :: lo8 (crc16 T d) :: hi8 (crc16 T d) ::
        lo8 seq :: hi8 seq :: flipBit d i b := by
    rw [packL1_eq, Nat.add_comm]
    rfl
  rw [hflip, parseL1_cons8, parsePayload_eq_checksum_iff (by simp [half_toNat hlen])]
  simp only [le16_lo8_hi8]

end Sys2Proof.Machine

open Sys2Proof Sys2Proof.Machine

/-- Settles O54: a flip in the payload leaves the header, so the declared CRC is that of the payload before the flip. -/
theorem payloadFlipIsChecksumError : Obligations.PayloadFlipIsChecksumError := by
  refine fun T => ⟨fun h d i b hlen hi => ?_, fun h flags seq d i b hlen hi => ?_⟩
  · exact (parseL1_flipBit_payload T 0 0 hlen i b).mp (h 0 0 d i b hlen hi)
  · exact (parseL1_flipBit_payload T flags seq hlen i b).mpr (h d i b hlen hi)
end

section
/-! The L1 unit (42_l1_frame.md R201 to R219, 60_exceptions.md R362): frames and their fields by byte index, what
`parse_l1` gives on a whole header, on a packed frame or a part of one, and on an input with bytes appended. -/

namespace Sys2Proof.Machine

variable {T : CrcTable} {d : List Byte} {h : L1Header} {body : List Byte}

/-- The wire layout of R120 is what `pack_l1` writes, when the length field can say the length (R201). -/
theorem packL1_eq_wireFrame (T : CrcTable) (flags : Byte) (seq : Half) (hlen : d.length ≤ 65535) :
    packL1 T flags seq d = wireFrame T flags seq d := by
  simp only [packL1, wireFrame, le16Bytes_eq, half_toNat hlen, startByte]

/-! ## The payload -/

/-- A payload shorter than declared is partial (R202). -/
theorem parsePayload_of_lt (T : CrcTable) (hlen : body.length < h.length.toNat) :
    parsePayload T h body = .shortPayload body h (h.length.toNat - body.length) := if_pos hlen

/-- Once the declared bytes are there, their CRC decides, and further bytes are only counted (R202). -/
theorem parsePayload_of_le (T : CrcTable) (hlen : h.length.toNat ≤ body.length) :
    parsePayload T h body = if crc16 T (body.take h.length.toNat) = h.crc then
      .complete (body.take h.length.toNat) h (body.length - h.length.toNat) else .checksum := if_neg (by omega)

/-! ## The header, by byte index -/

/-- The header that the bytes 1 to 7 of an input declare (R120). -/
def headerAt (d : List Byte) : L1Header where
  flags := byteAt d 1
  length := BitVec.ofNat 16 (u16At d 2)
  crc := BitVec.ofNat 16 (u16At d 4)
  seq := BitVec.ofNat 16 (u16At d 6)

theorem u16At_lt (d : List Byte) (i : Nat) : u16At d i < 65536 := by
  have := (byteAt d i).isLt
  have := (byteAt d (i + 1)).isLt
  unfold u16At
  omega

/-- A 16-bit field read at an index, kept in a 16-bit register (R24, R73). -/
@[simp] theorem toNat_ofNat_u16At (d : List Byte) (i : Nat) : (BitVec.ofNat 16 (u16At d i)).toNat = u16At d i :=
  half_toNat (Nat.le_of_lt_succ (u16At_lt d i))

theorem ofNat_u16At (d : List Byte) (i : Nat) : BitVec.ofNat 16 (u16At d i) = le16 (byteAt d i) (byteAt d (i + 1)) :=
  BitVec.eq_of_toNat_eq (by rw [toNat_ofNat_u16At, le16_toNat, u16At])

/-- A first byte that is not the start byte, by index (R211). -/
theorem parseL1_of_byteAt_ne (T : CrcTable) (hlen : 1 ≤ d.length) (h0 : byteAt d 0 ≠ startByte) :
    parseL1 T d = .framing := by
  obtain ⟨d0, tail, rfl⟩ := List.exists_cons_of_length_pos hlen
  exact parseL1_framing h0

/-- Fewer than 8 bytes without a wrong start byte, by index (R202). -/
theorem parseL1_of_length_lt (T : CrcTable) (hlen : d.length < 8) (h0 : 1 ≤ d.length → byteAt d 0 = startByte) :
    parseL1 T d = .shortHeader (8 - d.length) := by
  refine parseL1_short T hlen fun b hb => ?_
  obtain ⟨tail, rfl⟩ := List.head?_eq_some_iff.mp hb
  exact h0 (by simp)

/-- Eight bytes or more after the start byte are parsed by the header they declare and the bytes after it (R202). -/
theorem parseL1_of_le_length (T : CrcTable) (hlen : 8 ≤ d.length) (h0 : byteAt d 0 = startByte) :
    parseL1 T d = parsePayload T (headerAt d) (d.drop 8) := by
  rcases frame_forms d with ⟨d0, tail, rfl, hne⟩ | ⟨hlt, -⟩ | ⟨d1, d2, d3, d4, d5, d6, d7, body, rfl⟩
  · exact absurd h0 hne
  · omega
  · simp only [parseL1_cons8, headerAt, ofNat_u16At]
    rfl

/-- A payload shorter than the declared length, by index (R202). -/
theorem parseL1_of_short_payload (T : CrcTable) (hlen : 8 ≤ d.length) (h0 : byteAt d 0 = startByte)
    (hshort : d.length - 8 < u16At d 2) :
    parseL1 T d = .shortPayload (d.drop 8) (headerAt d) (u16At d 2 - (d.length - 8)) := by
  have hdeclared : (headerAt d).length.toNat = u16At d 2 := toNat_ofNat_u16At d 2
  rw [parseL1_of_le_length T hlen h0, parsePayload_of_lt T (by rwa [hdeclared, List.length_drop]), hdeclared,
    List.length_drop]

/-- With the declared number of bytes there, their CRC against the declared one, by index (R202). -/
theorem parseL1_of_whole_payload (T : CrcTable) (hlen : 8 ≤ d.length) (h0 : byteAt d 0 = startByte)
    (hwhole : u16At d 2 ≤ d.length - 8) :
    parseL1 T d = if (crc16 T ((d.drop 8).take (u16At d 2))).toNat = u16At d 4 then
      .complete ((d.drop 8).take (u16At d 2)) (headerAt d) (d.length - 8 - u16At d 2) else .checksum := by
  have hdeclared : (headerAt d).length.toNat = u16At d 2 := toNat_ofNat_u16At d 2
  have hcrc (c : Half) : c = (headerAt d).crc ↔ c.toNat = u16At d 4 := by
    rw [← BitVec.toNat_inj, headerAt, toNat_ofNat_u16At]
  rw [parseL1_of_le_length T hlen h0, parsePayload_of_le T (by rwa [hdeclared, List.length_drop]), hdeclared,
    List.length_drop]
  simp only [hcrc]

/-! ## Packed frames -/

/-- The header of a packed frame declares its payload, whatever bytes follow it (R201, R202). -/
theorem parseL1_packed_header (T : CrcTable) (flags : Byte) (seq : Half) (d body : List Byte) :
    parseL1 T (startByte :: flags :: lo8 (half d.length) :: hi8 (half d.length) :: lo8 (crc16 T d) :: hi8 (crc16 T d) ::
      lo8 seq :: hi8 seq :: body) = parsePayload T ⟨flags, half d.length, crc16 T d, seq⟩ body := by
  simp only [parseL1_cons8, le16_lo8_hi8]

/-- A packed frame is parsed back (R218). -/
theorem parseL1_packL1 (T : CrcTable) (flags : Byte) (seq : Half) (hlen : d.length ≤ 65535) :
    parseL1 T (packL1 T flags seq d) = .complete d ⟨flags, half d.length, crc16 T d, seq⟩ 0 := by
  rw [packL1_eq, parseL1_packed_header, parsePayload_of_le T (by simp [half_toNat hlen])]
  simp [half_toNat hlen]

/-- Fewer than 8 bytes of a packed frame lack a header (R219). -/
theorem parseL1_take_packL1_of_lt (T : CrcTable) (flags : Byte) (seq : Half) {k : Nat} (hk : k < 8) :
    parseL1 T ((packL1 T flags seq d).take k) = .shortHeader (8 - k) := by
  have hlength : ((packL1 T flags seq d).take k).length = k := by
    rw [List.length_take, packL1_length]
    omega
  rw [parseL1_short T (by omega), hlength]
  intro b hb
  rw [packL1_eq, List.head?_take] at hb
  split at hb
  · cases hb
  · exact (Option.some.inj hb).symm

/-- A packed frame cut in its payload lacks the rest of it (R219). -/
theorem parseL1_take_packL1_of_le (T : CrcTable) (flags : Byte) (seq : Half) (hlen : d.length ≤ 65535) {j : Nat}
    (hj : j < d.length) : parseL1 T ((packL1 T flags seq d).take (j + 8)) =
      .shortPayload (d.take j) ⟨flags, half d.length, crc16 T d, seq⟩ (d.length - j) := by
  have hlength : (d.take j).length = j := by
    rw [List.length_take]
    omega
  simp only [packL1_eq, List.take_succ_cons, parseL1_packed_header]
  rw [parsePayload_of_lt T (by rw [half_toNat hlen, hlength]; exact hj), half_toNat hlen, hlength]

/-! ## Bytes appended -/

/-- The declared bytes and their CRC stay what they are, however many bytes follow (R362). -/
theorem parsePayload_append_of_bad {r : L1Result} (hbad : r = .framing ∨ r = .checksum)
    (hp : parsePayload T h body = r) (more : List Byte) : parsePayload T h (body ++ more) = r := by
  rcases Nat.lt_or_ge body.length h.length.toNat with hlt | hle
  · rw [parsePayload_of_lt T hlt] at hp
    simp [← hp] at hbad
  · rw [parsePayload_of_le T hle] at hp
    split at hp
    · simp [← hp] at hbad
    · next hcrc =>
      rw [parsePayload_of_le T (by rw [List.length_append]; omega), List.take_append_of_le_length hle, if_neg hcrc, hp]

/-- A framing or checksum error is found again, however many bytes follow (R362). -/
theorem parseL1_append_of_bad {r : L1Result} (hbad : r = .framing ∨ r = .checksum) (hp : parseL1 T d = r)
    (more : List Byte) : parseL1 T (d ++ more) = r := by
  rcases frame_forms d with ⟨d0, tail, rfl, h0⟩ | ⟨hlt, h0⟩ | ⟨d1, d2, d3, d4, d5, d6, d7, body, rfl⟩
  · rw [parseL1_framing h0] at hp
    exact (parseL1_framing h0).trans hp
  · rw [parseL1_short T hlt h0] at hp
    simp [← hp] at hbad
  · rw [parseL1_cons8] at hp
    exact (parseL1_cons8 ..).trans (parsePayload_append_of_bad hbad hp more)

/-- A command that raises an error stopped with it (R311). -/
theorem Raises.stops {i : Instr} {s : State} {e : Err} (hraises : Raises i s e) : Stops i s e :=
  stops_of_err (raises_iff.mp hraises) rfl

end Sys2Proof.Machine

open Sys2Proof Sys2Proof.Machine

/-- Settles O52: the header of a packed frame declares the payload's length and CRC, and the three commands pass their
checks in turn, each on what the one before it left. -/
theorem l1RoundTrip : Obligations.L1RoundTrip := by
  refine ⟨fun T flags seq d hlen => parseL1_packL1 T flags seq hlen, fun s short fitsObuf fitsIbuf => ?_⟩
  refine ⟨_, (execSeq_cons_of_completes (.l1pack short fitsObuf) _).trans <|
    (execSeq_cons_of_completes (.otoi ?frameFits) _).trans <|
    execSeq_cons_of_completes (.l1parseWhole s.ibuf
      ⟨s.l1flags, half s.ilen, crc16 s.params.crcTable s.ibuf, s.l1seq⟩ 0 ?parsed ?payloadFits) [], ?registers⟩
  case frameFits => simpa [State.olen, State.ilen] using fitsIbuf
  case parsed => simpa [State.ilen] using parseL1_packL1 s.params.crcTable s.l1flags s.l1seq short
  case payloadFits => exact fitsObuf.mono (Nat.le_add_left ..)
  case registers => simp [word32]

/-- Settles O25: L1PACK completes when the length field can say the length and OBUF holds the frame, and stops at the
first check that fails. -/
theorem l1packBuildsFrameOrRaises : Obligations.L1packBuildsFrameOrRaises := by
  refine ⟨rfl, fun s => ⟨fun long => (Stops.l1packLength long).raises,
    fun short full => (Stops.l1packCap short full).raises, fun short fits => ?_⟩⟩
  rw [← packL1_eq_wireFrame _ _ _ short]
  exact (Completes.l1pack short fits).exec_eq

/-- Settles O26: the first byte, the number of bytes, the declared length and the declared CRC decide what `parse_l1`
gives, and with it what L1PARSE does. -/
theorem l1parseByContents : Obligations.L1parseByContents := by
  refine ⟨rfl, fun n => word32_toNat, ?_⟩
  rintro s len rfl
  refine ⟨fun hlen h0 => (Stops.l1parseFraming (parseL1_of_byteAt_ne _ hlen h0)).raises,
    fun hlen h0 => (Completes.l1parseHeader _ (parseL1_of_length_lt _ hlen h0)).exec_eq,
    fun hlen h0 hshort => ?_, fun hlen h0 hwhole => ⟨fun hcrc => ?_, fun hcrc => ?_⟩⟩
  · have result := parseL1_of_short_payload s.params.crcTable hlen h0 hshort
    have hcontent : (s.ibuf.drop 8).length = s.ilen - 8 := List.length_drop
    exact ⟨fun full => (Stops.l1parsePartial _ _ _ result (by rwa [hcontent])).raises,
      fun fits => (Completes.l1parsePartial _ _ _ result (by rwa [hcontent])).exec_eq⟩
  · exact (Stops.l1parseChecksum ((parseL1_of_whole_payload _ hlen h0 hwhole).trans (if_neg hcrc))).raises
  · have result := (parseL1_of_whole_payload s.params.crcTable hlen h0 hwhole).trans (if_pos hcrc)
    have hcontent : ((s.ibuf.drop 8).take (u16At s.ibuf 2)).length = u16At s.ibuf 2 :=
      List.length_take_of_le (by rwa [List.length_drop])
    exact ⟨fun full => (Stops.l1parseWhole _ _ _ result (by rwa [hcontent])).raises,
      fun fits => (Completes.l1parseWhole _ _ _ result (by rwa [hcontent])).exec_eq⟩

/-- Settles O53: a cut before byte 8 leaves no header, a later one the frame's own header and a part of its payload. -/
theorem l1FragmentsArePartial : Obligations.L1FragmentsArePartial := by
  refine fun T flags seq d k hlen hk => ⟨parseL1_take_packL1_of_lt T flags seq, fun h8 => ?_⟩
  obtain ⟨j, rfl⟩ := Nat.exists_eq_add_of_le' h8
  rw [parseL1_take_packL1_of_le T flags seq hlen (by omega), Nat.add_sub_cancel, Nat.add_comm 8, Nat.add_sub_add_right]
  rfl

/-- Settles O55: `parse_l1` finds the error again with the bytes appended. -/
theorem badFrameStaysBad : Obligations.BadFrameStaysBad := by
  rintro s more e (rfl | rfl) hraises
  · cases hraises.stops with
    | l1parseFraming result => exact (Stops.l1parseFraming (parseL1_append_of_bad (.inl rfl) result more)).raises
  · cases hraises.stops with
    | l1parseChecksum result => exact (Stops.l1parseChecksum (parseL1_append_of_bad (.inr rfl) result more)).raises
end

section
/-! The L2 unit (43_l2_tlv.md R231 to R247): packed messages as the wire layout of R125 and R126, and `parse_l2` as the
inverse of `pack_l2`. -/

namespace Sys2Proof.Machine

variable {recs : List Record}

/-- The wire layout of R126 is what `pack_l2` writes for a record whose length field can say its length (R231). -/
theorem packRecord_eq_wireRecord {r : Record} (short : r.value.length ≤ 65535) : packRecord r = wireRecord r := by
  rw [packRecord, le16Bytes_eq, half_toNat short]
  rfl

/-- The wire layout of R125 is what `pack_l2` writes for such records (R231). -/
theorem packL2_eq_wireMessage (cmd flags : Byte) (short : ShortValues recs) :
    packL2 cmd flags recs = wireMessage cmd flags recs :=
  congrArg (cmd :: flags :: ·) (List.flatMap_congr fun r hr => packRecord_eq_wireRecord (short r hr))

/-- A packed message is parsed back: there is fuel for each record, which has at least one byte (R242, R247). -/
theorem parseL2_packL2 (cmd flags : Byte) (short : ShortValues recs) :
    parseL2 (packL2 cmd flags recs) = some (cmd, flags, recs) :=
  congrArg (Option.map _) (parseRecords_flatMap short (length_le_flatMap recs))

/-- `parse_l2` accepts exactly the messages of R125, and gives what they are made of (R232, R247). -/
theorem parseL2_eq_some_iff {d : List Byte} {cmd flags : Byte} :
    parseL2 d = some (cmd, flags, recs) ↔ ShortValues recs ∧ d = wireMessage cmd flags recs := by
  constructor
  · intro result
    obtain ⟨rfl, short⟩ := parseL2_eq_some result
    exact ⟨short, packL2_eq_wireMessage cmd flags short⟩
  · rintro ⟨short, rfl⟩
    rw [← packL2_eq_wireMessage cmd flags short, parseL2_packL2 cmd flags short]

end Sys2Proof.Machine

open Sys2Proof Sys2Proof.Machine

/-- Settles O56: `parse_l2` and `pack_l2` are inverse to each other, and the three commands pass their checks in turn:
the invariant says that the records parsed back fit FTAB, where they came from. -/
theorem l2RoundTrip : Obligations.L2RoundTrip := by
  refine ⟨fun cmd flags recs => parseL2_packL2 cmd flags, fun d cmd flags recs => parseL2_eq_some,
    fun s inv fitsObuf fitsIbuf => ?_⟩
  obtain ⟨wf, -, -⟩ := inv
  obtain ⟨-, -, fitsRecords, fitsValues, short⟩ := wf_iff.mp wf
  refine ⟨_, (execSeq_cons_of_completes (.l2pack fitsObuf) _).trans <|
    (execSeq_cons_of_completes (.otoi ?messageFits) _).trans <|
    execSeq_cons_of_completes (.l2parse s.l2cmd s.l2flags s.ftab ?parsed ?recordsFit ?valuesFit) [],
    ?registers⟩
  case messageFits => simpa [State.olen, packL2_length] using fitsIbuf
  case parsed => exact parseL2_packL2 s.l2cmd s.l2flags short
  case recordsFit => exact fitsRecords
  case valuesFit => exact fitsValues
  case registers => simp

/-- Settles O27: what L2PACK writes is the message of R125 when every value is short, and its length, which L2PACK
checks first, is the sum of R235. -/
theorem l2packBuildsMessageOrRaises : Obligations.L2packBuildsMessageOrRaises := by
  refine ⟨rfl, fun s short => ?_⟩
  rw [← packL2_eq_wireMessage _ _ short]
  exact ⟨packL2_length .., fun full => (Stops.l2pack full).raises, fun fits => (Completes.l2pack fits).exec_eq⟩

/-- Settles O28: `parse_l2` accepts IBUF exactly when it is a message, and then the two capacities decide. -/
theorem l2parseAcceptsMessagesOnly : Obligations.L2parseAcceptsMessagesOnly := by
  refine ⟨rfl, fun s => ⟨fun noMessage => ?_, fun cmd flags recs short message => ?_⟩⟩
  · have result : parseL2 s.ibuf = none := Option.eq_none_iff_forall_ne_some.mpr fun ⟨cmd, flags, recs⟩ result =>
      noMessage ⟨cmd, flags, recs, parseL2_eq_some_iff.mp result⟩
    exact (Stops.l2parseTrunc result).raises
  · have result := parseL2_eq_some_iff.mpr ⟨short, message⟩
    refine ⟨fun full => (Stops.l2parseRecords _ _ _ result full).raises, fun full => ?_,
      fun fitsRecords fitsValues => (Completes.l2parse _ _ _ result fitsRecords fitsValues).exec_eq⟩
    by_cases fitsRecords : Fits s.params.ftabCap recs.length
    · exact (Stops.l2parseValues _ _ _ result fitsRecords full).raises
    · exact (Stops.l2parseRecords _ _ _ result fitsRecords).raises
end

section
/-! AES and ECB (44_aes_ecb.md R260 to R283): the rounds of `InvCipher` take back those of `Cipher` one by one, either
way round; SBOX as an affine image of the inverse in GF(2^8); the two commands. -/

namespace Sys2Proof.Machine

/-! ## Rounds -/

/-- Rounds `n` to 1 of `InvCipher` lead from the middle of round `n + 1` of `Cipher` back to that of round 1 (R274). -/
theorem invCipherRounds_cipherRounds (key x : AesBlock) (n : Nat) :
    invCipherRounds key n (shiftRows (subBytes (cipherRounds key x n))) =
      shiftRows (subBytes (addRoundKey x (roundKey key 0))) := by
  induction n with
  | zero => rfl
  | succ n ih => simpa [invCipherRounds, cipherRounds] using ih

/-- Rounds 1 to `n` of `Cipher` take back rounds `n` to 1 of `InvCipher`, up to the middle of round `n + 1` (R274). -/
theorem cipherRounds_invCipherRounds (key s : AesBlock) (n : Nat) :
    cipherRounds key (addRoundKey (invSubBytes (invShiftRows (invCipherRounds key n s))) (roundKey key 0)) n =
      invSubBytes (invShiftRows s) := by
  induction n generalizing s with
  | zero => simp [invCipherRounds, cipherRounds]
  | succ n ih => simp [invCipherRounds, cipherRounds, ih]

/-- `InvCipher` undoes `Cipher` (R274). -/
theorem invCipher_cipher (key x : AesBlock) : invCipher key (cipher key x) = x := by
  simp [invCipher, cipher, invCipherRounds_cipherRounds]

/-- `Cipher` undoes `InvCipher` (R274). -/
theorem cipher_invCipher (key x : AesBlock) : cipher key (invCipher key x) = x := by
  simp [invCipher, cipher, cipherRounds_invCipherRounds]

/-! ## Whole blocks -/

/-- `decrypt_ecb` undoes `encrypt_ecb` on whole blocks (R283). -/
theorem decryptEcb_encryptEcb (key : Vector Byte 16) {d : List Byte} (whole : d.length % 16 = 0) :
    decryptEcb key (encryptEcb key d) = d := ecb_ecb (invCipher_cipher _) d whole

/-- `encrypt_ecb` undoes `decrypt_ecb` on whole blocks (R283). -/
theorem encryptEcb_decryptEcb (key : Vector Byte 16) {d : List Byte} (whole : d.length % 16 = 0) :
    encryptEcb key (decryptEcb key d) = d := ecb_ecb (cipher_invCipher _) d whole

/-- `encrypt_ecb` keeps the length of whole blocks (R261). -/
theorem encryptEcb_length (key : Vector Byte 16) {d : List Byte} (whole : d.length % 16 = 0) :
    (encryptEcb key d).length = d.length := ecb_length _ d whole

/-- `decrypt_ecb` keeps the length of whole blocks (R261). -/
theorem decryptEcb_length (key : Vector Byte 16) {d : List Byte} (whole : d.length % 16 = 0) :
    (decryptEcb key d).length = d.length := ecb_length _ d whole

/-! ## SBOX as an affine image -/

/-- The affine map of R266. -/
def sboxAffine (b : Byte) : Byte :=
  b ^^^ b.rotateLeft 1 ^^^ b.rotateLeft 2 ^^^ b.rotateLeft 3 ^^^ b.rotateLeft 4 ^^^ 0x63

/-- The inverse of the affine map, as three rotations and a constant. -/
def sboxAffineInv (c : Byte) : Byte := c.rotateLeft 1 ^^^ c.rotateLeft 3 ^^^ c.rotateLeft 6 ^^^ 0x05

theorem sboxAffine_sboxAffineInv (c : Byte) : sboxAffine (sboxAffineInv c) = c := by
  revert c
  decide +kernel

/-- The affine map taken off `SBOX[a]` leaves the inverse of `a` in GF(2^8) (R266). -/
theorem gmul_sboxAffineInv_sbox {a : Byte} : a ≠ 0 → gmul a (sboxAffineInv (sbox a)) = 1 := by
  revert a
  decide +kernel

/-- `SBOX` has no fixed point (R266). -/
theorem sbox_ne_self (a : Byte) : sbox a ≠ a := by
  revert a
  decide +kernel

end Sys2Proof.Machine

open Sys2Proof Sys2Proof.Machine

/-- Settles O57: by induction on the rounds, each layer of a round undone by its inverse. -/
theorem cipherAndInverseCancel : Obligations.CipherAndInverseCancel := fun key x =>
  ⟨invCipher_cipher key x, cipher_invCipher key x⟩

/-- Settles O58: block by block from O57; the three commands pass their checks in turn, as the encryption is as long as
IBUF was. -/
theorem ecbRoundTrip : Obligations.EcbRoundTrip := by
  refine ⟨fun key d whole => ⟨decryptEcb_encryptEcb key whole, encryptEcb_decryptEcb key whole⟩,
    fun s ready whole fitsObuf fitsIbuf => ?_⟩
  have sameLength : (encryptEcb s.key s.ibuf).length = s.ilen := encryptEcb_length s.key whole
  refine ⟨_, (execSeq_cons_of_completes (.aesenc ready whole fitsObuf) _).trans <|
    (execSeq_cons_of_completes (.otoi ?copyFits) _).trans <|
    execSeq_cons_of_completes (.aesdec ?stillReady ?stillWhole ?resultFits) [], ?registers⟩
  case copyFits => simpa [State.olen, sameLength] using fitsIbuf
  case stillReady => exact ready
  case stillWhole => simpa [State.ilen, sameLength] using whole
  case resultFits => simpa [State.ilen, sameLength] using fitsObuf
  case registers => simp [decryptEcb_encryptEcb s.key whole]

/-- Settles O29: the checks of R280 in their order, and ECB block by block. -/
theorem aesencEncryptsOrRaises : Obligations.AesencEncryptsOrRaises :=
  ⟨rfl, fun s => ⟨fun unready => (Stops.aesencKey unready).raises,
    fun ready ragged => (Stops.aesencAlign ready ragged).raises,
    fun ready whole full => (Stops.aesencCap ready whole full).raises,
    fun ready whole fits => ⟨(Completes.aesenc ready whole fits).exec_eq, encryptEcb_length s.key whole⟩,
    ecb_nil _, ecb_block _⟩⟩

/-- Settles O30: the checks of R280 in their order, and ECB block by block. -/
theorem aesdecDecryptsOrRaises : Obligations.AesdecDecryptsOrRaises :=
  ⟨rfl, fun s => ⟨fun unready => (Stops.aesdecKey unready).raises,
    fun ready ragged => (Stops.aesdecAlign ready ragged).raises,
    fun ready whole full => (Stops.aesdecCap ready whole full).raises,
    fun ready whole fits => ⟨(Completes.aesdec ready whole fits).exec_eq, decryptEcb_length s.key whole⟩,
    ecb_nil _, ecb_block _⟩⟩

/-- Settles O59: the inverse of `a` is what the affine map, taken off `SBOX[a]`, leaves. -/
theorem sboxIsAffineInverse : Obligations.SboxIsAffineInverse :=
  ⟨rfl, fun a => ⟨invSbox_sbox a, sbox_invSbox a, sbox_ne_self a, fun ha =>
    ⟨sboxAffineInv (sbox a), gmul_sboxAffineInv_sbox ha, (sboxAffine_sboxAffineInv (sbox a)).symm⟩⟩⟩

/-- Settles O60: the four fixed values, each computed by the model. -/
theorem aesCheckValues : Obligations.AesCheckValues := by
  refine ⟨?roundKeyTen, ?appendixC, ?encryptedZero, ?decryptedZero⟩
  case roundKeyTen => decide +kernel
  case appendixC => decide +kernel
  case encryptedZero => decide +kernel
  case decryptedZero => decide +kernel
end

section
/-! Errors over all commands (60_exceptions.md R311, R340): what a command that ends with an error has changed, and for
each cross of the matrix a state that reaches it. -/

namespace Sys2Proof.Machine

variable {i : Instr} {s t : State} {e : Err}

/-- A next state with an error in STATUS.ERR records that error alone (R311). -/
theorem onlyErrorRecorded_of_err (hexec : exec i s = .next t) (herr : t.err = some e) : OnlyErrorRecorded s t e := by
  have hraise : exec i s = .next (s.raiseError e) := (stops_of_err hexec herr).exec_eq
  cases hexec.symm.trans hraise
  exact raiseError_onlyErrorRecorded s e

/-! The states that reach the crosses of R340 are reset states with some stores set. For every error but E_CAP the
default capacities serve; for E_CAP one capacity is small, so that a short string fills it. -/

/-- The state with every bit of KVALID set. -/
def State.withKeyReady (s : State) : State := { s with kvalid := 0xFFFF }

/-- An input one byte longer than a 16-bit length can say (R306). -/
def longInput : State := State.reset.setIbuf (List.replicate 65536 0)

theorem longInput_ilen : longInput.ilen = 65536 := List.length_replicate

/-- The default input buffer holds the long input (R18). -/
theorem longInput_inv : longInput.Inv :=
  have fits : longInput.ilen ≤ 65543 := by simp [longInput_ilen]
  ⟨setIbuf_wf (resetWith_wf Params.default) fits, rfl, rfl⟩

/-- Each cross outside the column of E_CAP is reached with the default parameters, from a state that keeps the invariant
(R340). -/
theorem exists_stops_of_ne_cap (h : MayRaise i e = true) (hcap : e ≠ .cap) :
    ∃ s : State, Stops i s e ∧ s.params = Params.default ∧ s.Inv := by
  cases e with
  | framing =>
    cases i with
    | l1parse => exact ⟨State.reset.setIbuf [0], .l1parseFraming rfl, rfl, rfl, rfl, rfl⟩
    | _ => cases h
  | checksum =>
    cases i with
    | l1parse => -- an empty payload, whose CRC is 0, declared with CRC 1
      exact ⟨State.reset.setIbuf [0xAB, 0, 0, 0, 1, 0, 0, 0], .l1parseChecksum rfl, rfl, rfl, rfl, rfl⟩
    | _ => cases h
  | trunc =>
    cases i with
    | l2parse => exact ⟨State.reset, .l2parseTrunc rfl, rfl, rfl, rfl, rfl⟩
    | _ => cases h
  | align =>
    cases i with
    | aesenc => exact ⟨(State.reset.setIbuf [0]).withKeyReady, .aesencAlign rfl (by decide), rfl, rfl, rfl, rfl⟩
    | aesdec => exact ⟨(State.reset.setIbuf [0]).withKeyReady, .aesdecAlign rfl (by decide), rfl, rfl, rfl, rfl⟩
    | _ => cases h
  | key =>
    cases i with
    | aesenc => exact ⟨State.reset, .aesencKey (by decide), rfl, rfl, rfl, rfl⟩
    | aesdec => exact ⟨State.reset, .aesdecKey (by decide), rfl, rfl, rfl, rfl⟩
    | _ => cases h
  | len =>
    cases i with
    | fadd k => exact ⟨longInput, .faddLength k (by simp [longInput_ilen]), rfl, longInput_inv⟩
    | l1pack => exact ⟨longInput, .l1packLength (by simp [longInput_ilen]), rfl, longInput_inv⟩
    | _ => cases h
  | cap => exact absurd rfl hcap
  | noField =>
    cases i with
    | flook k => exact ⟨State.reset, .flookNone k rfl, rfl, rfl, rfl, rfl⟩
    | _ => cases h
  | dupKey =>
    cases i with
    | flook k =>
      have two : recordsWith k [⟨k, []⟩, ⟨k, []⟩] = [⟨k, []⟩, ⟨k, []⟩] := by simp [recordsWith]
      exact ⟨State.reset.setFtab [⟨k, []⟩, ⟨k, []⟩], .flookTwo k _ _ _ two, rfl, rfl, rfl, rfl⟩
    | _ => cases h
  | illegal => cases i with | _ => cases h

/-- The reset state of a block whose input buffer holds 16 bytes, fewer than its output buffer. -/
def smallIbuf : State := State.resetWith { Params.default with ibufCap := .bounded 16 }

/-- The reset state of a block whose output buffer holds 16 bytes, fewer than its input buffer or a field value. -/
def smallObuf : State := State.resetWith { Params.default with obufCap := .bounded 16 }

/-- The reset state of a block whose field table holds one record. -/
def smallFtab : State := State.resetWith { Params.default with ftabCap := .bounded 1 }

/-- Each cross in the column of E_CAP is reached with capacities that R18 allows, from a state that keeps the invariant
(R340). -/
theorem exists_stops_cap (h : MayRaise i .cap = true) :
    ∃ s : State, Stops i s .cap ∧ s.params.wf = true ∧ s.Inv := by
  have full {c : Cap} {n : Nat} (hmore : c.exceeds n = true) : ¬ Fits c n := exceeds_eq_true.mp hmore
  cases i with
  | ipush b => exact ⟨smallIbuf.setIbuf (List.replicate 16 0), .ipush b (full rfl), rfl, rfl, rfl, rfl⟩
  | otoi => exact ⟨smallIbuf.setObuf (List.replicate 17 0), .otoi (full rfl), rfl, rfl, rfl, rfl⟩
  | fadd k => exact ⟨smallFtab.setFtab [⟨k, []⟩], .faddRecord k (Nat.zero_le _) (full rfl), rfl, rfl, rfl, rfl⟩
  | flook k =>
    have only : recordsWith k [⟨k, List.replicate 17 0⟩] = [⟨k, List.replicate 17 0⟩] := by simp [recordsWith]
    exact ⟨smallObuf.setFtab [⟨k, List.replicate 17 0⟩], .flookCap k _ only (full rfl), rfl, rfl, rfl, rfl⟩
  | l1pack => exact ⟨smallObuf.setIbuf (List.replicate 9 0), .l1packCap (by decide) (full rfl), rfl, rfl, rfl, rfl⟩
  | l1parse => -- 17 of the 18 bytes the header declares
    exact ⟨smallObuf.setIbuf ([0xAB, 0, 18, 0, 0, 0, 0, 0] ++ List.replicate 17 0),
      .l1parsePartial (List.replicate 17 0) ⟨0, 18, 0, 0⟩ 1 rfl (full rfl), rfl, rfl, rfl, rfl⟩
  | l2pack => exact ⟨smallObuf.setFtab [⟨0, List.replicate 12 0⟩], .l2pack (full rfl), rfl, rfl, rfl, rfl⟩
  | l2parse =>
    exact ⟨smallFtab.setIbuf (packL2 0 0 [⟨0, []⟩, ⟨0, []⟩]),
      .l2parseRecords 0 0 [⟨0, []⟩, ⟨0, []⟩] rfl (full rfl), rfl, rfl, rfl, rfl⟩
  | aesenc =>
    exact ⟨(smallObuf.setIbuf (List.replicate 32 0)).withKeyReady, .aesencCap rfl rfl (full rfl), rfl, rfl, rfl, rfl⟩
  | aesdec =>
    exact ⟨(smallObuf.setIbuf (List.replicate 32 0)).withKeyReady, .aesdecCap rfl rfl (full rfl), rfl, rfl, rfl, rfl⟩
  | _ => cases h

/-- Each cross of the matrix is reached (R340). -/
theorem exists_stops_of_mayRaise (h : MayRaise i e = true) : ∃ s : State, Stops i s e := by
  by_cases hcap : e = .cap
  · subst hcap
    exact (exists_stops_cap h).imp fun _ => And.left
  · exact (exists_stops_of_ne_cap h hcap).imp fun _ => And.left

end Sys2Proof.Machine

open Sys2Proof Sys2Proof.Machine

/-- Settles O33: a command leaves only the error it stopped with, which the matrix gives it, and stops with each error
the matrix gives it in some state. -/
theorem errorMatrixIsExact : Obligations.ErrorMatrixIsExact := by
  refine ⟨fun i s t e hexec herr => (stops_of_err hexec herr).mayRaise, fun i e hcross => ?_⟩
  exact (exists_stops_of_mayRaise hcross).imp fun _ => Stops.raises

/-- Settles O31: the command stopped, and stopping is recording the error. -/
theorem errorEntryIsPrecise : Obligations.ErrorEntryIsPrecise := fun _ _ _ _ => onlyErrorRecorded_of_err

/-- Settles O8: with no input the step idles, and a power-on pulse resets the state that has taken it. -/
theorem stepIdlesOrPowersOn : Obligations.StepIdlesOrPowersOn :=
  ⟨fun _ => step_of_inputs_nil, fun _ _ hin => step_of_inputs_cons hin⟩
end

section
/-! The two resets (70_reset_and_hazards.md R350 to R352): SRST and the power-on pulse. -/

namespace Sys2Proof.Machine

variable {s s' : State}

/-- SRST leaves the reset state itself: completing it clears STATUS.ERR, which is 0 there already (R59, R141). -/
theorem exec_srst (s : State) : exec .srst s = .next s.toReset := Completes.srst.exec_eq

/-- The power-on pulse leaves the reset state of the state that has taken it (R350). -/
theorem step_powerOn {rest : List HostInput} (hin : s.inputs = .powerOn :: rest) :
    step s = .next (s.setInputs rest).toReset := step_of_inputs_cons hin

/-- The reset state is a function of the instance and of what is still to come (R352). -/
theorem toReset_congr (hparams : s'.params = s.params) (hinputs : s'.inputs = s.inputs) : s'.toReset = s.toReset := by
  simp only [State.toReset, hparams, hinputs]

end Sys2Proof.Machine

open Sys2Proof Sys2Proof.Machine

/-- Settles O41: both resets leave the reset state, in which the instance and the inputs to come are all that is left of
the state before. -/
theorem srstEqualsPowerOn : Obligations.SrstEqualsPowerOn := by
  intro s rest
  refine ⟨?sameReset, fun s' hparams hinputs => ?forgetsState, s.toReset, exec_srst s, rfl, ?logClear⟩
  case sameReset =>
    rw [exec_srst, step_powerOn rfl]
    rfl
  case forgetsState =>
    refine ⟨s.toReset, s'.toReset, exec_srst s, exec_srst s', ?_⟩
    rw [toReset_congr hparams hinputs]
    exact sameButKey_iff.mpr ⟨s.toReset.key, rfl⟩
  case logClear => exact resetWith_errlogWord s.params
end
